-- ==== Sys2Proof/Word.lean ====
section
/-!
DEFINITION. The words of the block that have one width: the opcode (30_encoding.md R47), the 32-bit handler token (R52) and
the 3-bit clock-select selector (R53). A command word has `ARG_W + 4` bits and its argument field `ARG_W` (00_scope.md R12,
R47); that width is a parameter, so both are unsigned numbers, `Nat`, everywhere (log 21).
-/

namespace Sys2Proof

/-- The opcode field `OP`, 4 bits (R47). -/
abbrev Opcode := BitVec 4

/-- An opaque handler token (R27, R52). -/
abbrev Token := BitVec 32

/-- A clock-select code (R53): 0 is `DISABLED`, `i + 1` selects `DIVS[i]`. -/
abbrev Selector := BitVec 3

/-- The no-op token `NOOP = 0x0000_0000` (R52). -/
abbrev noop : Token := 0#32

/-- The selector `DISABLED`, code 0: the clock source is disconnected (R53). -/
abbrev disabled : Selector := 0#3

end Sys2Proof
end

