-- ==== Sys2Proof/Machine/Operands.lean ====
section
/-!
DEFINITION. The operand forms (30_encoding.md R51, R52): what the decoder makes of the argument field. It holds the period,
zero-extended to a natural number, or the handler token.
-/

namespace Sys2Proof.Machine

/-- `period = zext(ARG)` (R12, R51): the unsigned value of `ARG`, no scale, no shift. -/
def periodOf (arg : Nat) : Nat := arg

/-- The handler token of ATTACH: `ARG` whole for `ARG_W = 32` (R52). Of a wider `ARG` (90_conflicts.md C7) it is the low 32
bits, since R27 and R52 keep the token at 32 bits: DESIGN CHOICE, log 22. -/
def tokenOf (arg : Nat) : Token := BitVec.ofNat 32 arg

end Sys2Proof.Machine
end

