-- ==== Sys2Proof/Syntax.lean ====
section
/-!
DEFINITION. The commands of the block, one constructor per row of spec/opcode_table.json (30_encoding.md R48, R50).
-/

namespace Sys2Proof

/-- One command. A command whose `ARG` is ignored (R49) carries no operand, so that any two words of it decode to the
same term. -/
inductive Instr where
  /-- `INIT` (R71). -/
  | init
  /-- `SETPERIOD period` (R72): the operand is `ARG` whole (R51). -/
  | setperiod (period : Nat)
  /-- `START` (R73). -/
  | start
  /-- `STOP` (R74). -/
  | stop
  /-- `RESET` (R75): zeroes the counter; not a reset of the block. -/
  | reset
  /-- `ATTACH handler` (R78): the operand is the token in `ARG` (R52). -/
  | attach (handler : Token)
  /-- `DETACH` (R79). -/
  | detach
  /-- `GETCB` (R76). -/
  | getcb
  /-- A reserved opcode `0x8 .. 0xF` (R50), kept whole so that every opcode encodes back to itself. -/
  | reserved (op : Opcode)
  deriving DecidableEq, Repr

/-- The mnemonic of a command as spec/opcode_table.json has it. -/
def Instr.mnemonic : Instr → String
  | .init => "INIT"
  | .setperiod _ => "SETPERIOD"
  | .start => "START"
  | .stop => "STOP"
  | .reset => "RESET"
  | .attach _ => "ATTACH"
  | .detach => "DETACH"
  | .getcb => "GETCB"
  | .reserved _ => "RESERVED"

/-- A command word as the opcode table and R56 have it: 36 bits, `ARG_W = 32`. -/
abbrev TableWord := BitVec 36

/-- One row of spec/opcode_table.json: a word `w` belongs to it when `w` agrees with `matchBits` wherever `mask` is set. -/
structure OpcodeRow where
  mnemonic : String
  matchBits : TableWord
  mask : TableWord
  deriving DecidableEq, Repr

end Sys2Proof
end

