-- ==== Sys2Proof/WellFormed.lean ====
section
/-!
DEFINITION. Which terms of `Instr` stand for a command word with an argument field of `ARG_W` bits: an operand fits in that
field (00_scope.md R12, 30_encoding.md R51, R52), and a reserved command carries a reserved opcode (R50). Every value of
`ARG` is legal for every opcode (R56).
-/

namespace Sys2Proof

/-- A reserved opcode is one of `0x8 .. 0xF` (R50). -/
def Opcode.isReserved (op : Opcode) : Bool := decide (8 ≤ op.toNat)

/-- Well-formedness of a command for an `ARG` of `argWidth` bits, constructor by constructor. -/
def Instr.wf (argWidth : Nat) : Instr → Bool
  | .init => true
  | .setperiod period => decide (period < 2 ^ argWidth)
  | .start => true
  | .stop => true
  | .reset => true
  | .attach handler => decide (handler.toNat < 2 ^ argWidth)
  | .detach => true
  | .getcb => true
  | .reserved op => Opcode.isReserved op

end Sys2Proof
end

