-- ==== Sys2Proof/Decode.lean ====
section
/-!
DEFINITION. Decoding and encoding of command words (30_encoding.md R47 to R52, R56), and the opcode table. `argWidth` is
`ARG_W` (00_scope.md R12): with 32 a command word is R47's `CMD[35:0]`, `OP = CMD[35:32]`, `ARG = CMD[31:0]`; with a wider
one (90_conflicts.md C7) `OP` stands just above `ARG` as it does there (log 21).
-/

namespace Sys2Proof

/-- `OP`, the four bits above `ARG` (R47). -/
def opField (argWidth w : Nat) : Opcode := BitVec.ofNat 4 (w / 2 ^ argWidth)

/-- `ARG`, the low `ARG_W` bits (R12, R47). -/
def argField (argWidth w : Nat) : Nat := w % 2 ^ argWidth

/-- The command an opcode and an argument stand for (R48). -/
def decodeFields (op : Opcode) (arg : Nat) : Instr :=
  match op.toNat with
  | 0x0 => .init
  | 0x1 => .setperiod (Machine.periodOf arg)
  | 0x2 => .start
  | 0x3 => .stop
  | 0x4 => .reset
  | 0x5 => .attach (Machine.tokenOf arg)
  | 0x6 => .detach
  | 0x7 => .getcb
  | _ => .reserved op

/-- Decoding is total on all words, `2^36` for `ARG_W = 32`, and `OP` alone selects the operation (R56). -/
def decode (argWidth w : Nat) : Instr :=
  decodeFields (opField argWidth w) (argField argWidth w)

/-- Why a number is not a command word. -/
inductive DecodeError where
  /-- The number needs more than the `ARG_W + 4` bits of a command word, the 36 bits of R47. -/
  | widerThanCommandWord
  deriving DecidableEq, Repr

/-- Decode a number: any number of at most `ARG_W + 4` bits is a command word and decodes (R56); a larger one is refused
by name. -/
def decodeNat (argWidth w : Nat) : Except DecodeError Instr :=
  if w < 2 ^ (argWidth + 4) then .ok (decode argWidth w) else .error .widerThanCommandWord

/-- The opcode of a command (R48). -/
def Instr.opcode : Instr → Opcode
  | .init => 0x0#4
  | .setperiod _ => 0x1#4
  | .start => 0x2#4
  | .stop => 0x3#4
  | .reset => 0x4#4
  | .attach _ => 0x5#4
  | .detach => 0x6#4
  | .getcb => 0x7#4
  | .reserved op => op

/-- The argument field an assembler writes: the operand, and 0 for a command without one (R49, R58). -/
def Instr.arg : Instr → Nat
  | .init => 0
  | .setperiod period => period
  | .start => 0
  | .stop => 0
  | .reset => 0
  | .attach handler => handler.toNat
  | .detach => 0
  | .getcb => 0
  | .reserved _ => 0

/-- The command word `{OP, ARG}` (R47); the field `ARG` holds `ARG_W` bits. -/
def joinFields (argWidth : Nat) (op : Opcode) (arg : Nat) : Nat :=
  op.toNat * 2 ^ argWidth + arg % 2 ^ argWidth

/-- The command word of a command. -/
def encode (argWidth : Nat) (i : Instr) : Nat := joinFields argWidth i.opcode i.arg

/-- Does a word belong to a row of the table? -/
def OpcodeRow.covers (r : OpcodeRow) (w : TableWord) : Bool := (w &&& r.mask) == r.matchBits

/-- spec/opcode_table.json, row by row. The RESERVED row's mask is the table's own, one bit, not the four bits of R56's
last sentence (DEDUCED, log 9). -/
def opcodeTable : List OpcodeRow :=
  [ ⟨"INIT", 0x000000000#36, 0xF00000000#36⟩,
    ⟨"SETPERIOD", 0x100000000#36, 0xF00000000#36⟩,
    ⟨"START", 0x200000000#36, 0xF00000000#36⟩,
    ⟨"STOP", 0x300000000#36, 0xF00000000#36⟩,
    ⟨"RESET", 0x400000000#36, 0xF00000000#36⟩,
    ⟨"ATTACH", 0x500000000#36, 0xF00000000#36⟩,
    ⟨"DETACH", 0x600000000#36, 0xF00000000#36⟩,
    ⟨"GETCB", 0x700000000#36, 0xF00000000#36⟩,
    ⟨"RESERVED", 0x800000000#36, 0x800000000#36⟩ ]

/-- The low `nbits` bits of a number, every bit above them 0: how the table numbers an instruction's bits. -/
def tableBits (nbits w : Nat) : Nat := w % 2 ^ nbits

/-- The instruction the decoder reads from the table's bits `w` of an instruction; none where those bits are no 36-bit
command word. The table has `ARG_W = 32`. -/
def decodeTableWord (nbits w : Nat) : Option Instr := (decodeNat 32 (tableBits nbits w)).toOption

end Sys2Proof
end

