-- ==== Sys2Proof/Config.lean ====
section
/-!
DEFINITION. What an implementation of the block fixes (00_scope.md R8 to R14): the parameters `W`, `DIVS`,
`ARG_W` and `P_MASKED_MATCH_PENDS` as plain data, the spec's defaults, and the open values as constants without a body.
-/

namespace Sys2Proof

/-- The parameters a model takes as arguments. A state carries them (log 1); no step writes them. -/
structure Params where
  /-- `W`, the width of the counter and of the compare register (R8). -/
  width : Nat
  /-- `DIVS`, the prescaler divisors (R10). -/
  divs : List Nat
  /-- `ARG_W`, the width of a command's argument field (R12): 32, and wider for a larger `W` or `DMAX` (90_conflicts.md C7,
  D9; log 21). -/
  argWidth : Nat
  /-- `P_MASKED_MATCH_PENDS` (R13): is a compare match latched while the interrupt is masked? -/
  maskedMatchPends : Bool
  deriving DecidableEq, Repr

/-- OPEN (R13, D21): the value of `P_MASKED_MATCH_PENDS` on the hardware at hand. No body: both values are admitted. -/
opaque Config.maskedMatchPends : Bool

/-- OPEN (R11, D5): `F_CLK`, input-clock ticks per second. No step reads it. The spec gives no range of it; that it is a
rational number, and that nothing excludes 0 or a negative one, is the model's choice (DESIGN CHOICE, log 23). -/
opaque Config.fClk : Rat

/-- OPEN (R14, D23): the raw draw behind `P_PHASE`, a fresh one for each index; Machine/Timing.lean keeps it in `1 .. d`.
No step reads it. -/
opaque Config.phaseDraw : Nat → Nat

/-- The default parameters: `W = 16` (R8), `DIVS = [1, 8, 64, 256, 1024]` (R10), `ARG_W = 32` (R12),
`P_MASKED_MATCH_PENDS` open. -/
def Config.default : Params :=
  { width := 16, divs := [1, 8, 64, 256, 1024], argWidth := 32, maskedMatchPends := Config.maskedMatchPends }

end Sys2Proof
end

