-- ==== Sys2Proof/Machine/State.lean ====
section
/-!
DEFINITION. The state of the block as plain data (10_state.md R20 to R30), its events, responses and faults, and the
state after power-on reset (R36).
-/

namespace Sys2Proof.Machine

/-- The waveform mode `MODE` (R21, R55): 0 is `normal`, 1 is `ctc`. -/
inductive Mode where
  | normal
  | ctc
  deriving DecidableEq, Repr

/-- The states of the Timer Controller, derived from `MODE` and `CS` (R31). -/
inductive ControllerState where
  | uninitialized
  | stopped
  | running
  deriving DecidableEq, Repr

/-- What `respond(v)` puts on the command port (R16, R57). -/
inductive Response where
  /-- The data-less acknowledgement. -/
  | ack
  /-- The handler token GETCB answers with (R76). -/
  | token (h : Token)
  deriving DecidableEq, Repr

/-- The two model faults of the spec (R96, R97). Each sets a sticky bit and does not stop the block (R98). -/
inductive FaultKind where
  /-- SETPERIOD, START or STOP before INIT (R96). -/
  | beforeInit
  /-- A command word with a reserved opcode (R97). -/
  | reservedOpcode
  deriving DecidableEq, Repr

/-- One entry of the schedule: who moves next (R6, R41). -/
inductive Event where
  /-- The host issues a command word, of `ARG_W + 4` bits, on the command port. -/
  | command (w : Nat)
  /-- The counter clock offers one prescaled clock edge (R83). -/
  | tick
  /-- Power-on reset (R103), with the draws of the two unspecified values `COMPARE` and `CNT` (R23, R24). -/
  | powerOn (compareDraw cntDraw : Nat)
  deriving DecidableEq, Repr

/-- The whole state. The first eleven fields are R20's tuple, in its order (the fault bits are one row there); the last
three are the model's own. -/
structure State where
  /-- `MODE` (R21). -/
  mode : Mode
  /-- `CS`, the live clock select (R22). -/
  cs : Selector
  /-- `COMPARE`, `W` bits (R23). -/
  compareReg : Nat
  /-- `CNT`, `W` bits (R24). -/
  cnt : Nat
  /-- `SAVED_CS`, the remembered clock select (R25). -/
  savedCs : Selector
  /-- `IE`, the interrupt enable (R26). -/
  ie : Bool
  /-- `HANDLER`, the callback slot (R27). -/
  handler : Token
  /-- `PEND`, the latched masked match (R28). -/
  pend : Bool
  /-- `FAULT_BEFORE_INIT` (R29). -/
  faultBeforeInit : Bool
  /-- `FAULT_RESERVED_OP` (R29). -/
  faultReservedOp : Bool
  /-- `DISPATCHES`, oldest first (R30). -/
  dispatches : List Token
  /-- The responses of the commands performed, oldest first (R57, R112; the model's own field, log 4). -/
  responses : List Response
  /-- The events still to be performed, next first (R41, R112; the model's own field, log 5). -/
  schedule : List Event
  /-- The parameters (R8, R10, R12, R13; the model's own field, log 1). No step writes it. -/
  params : Params
  deriving DecidableEq, Repr

/-- Why a step could stop with a fault. There is NO constructor: the spec's two faults set a sticky bit and the block
goes on (R98), so they are next states (`FaultKind`, log 8), and nothing in this model stops. Safe. -/
inductive Fault where
  deriving DecidableEq, Repr

/-- Why a step could be refused. -/
inductive Refusal where
  /-- Raised by an arm of `exec` whose command has no meaning yet; no arm of this model is one. Safe. -/
  | notModelled (mnemonic : String)
  deriving DecidableEq, Repr

/-- The state power-on reset leaves (R36, R103): `p` are the parameters, `compareDraw` and `cntDraw` the draws of the two
unspecified registers, of which their `W` bits count (R23, R24). -/
def State.powerOn (p : Params) (compareDraw cntDraw : Nat) : State :=
  { mode := .normal
    cs := disabled
    compareReg := compareDraw % 2 ^ p.width
    cnt := cntDraw % 2 ^ p.width
    savedCs := disabled
    ie := false
    handler := noop
    pend := false
    faultBeforeInit := false
    faultReservedOp := false
    dispatches := []
    responses := []
    schedule := []
    params := p }

/-- The machine right after power-on reset, for the default parameters. `COMPARE` and `CNT`, which R36 leaves
unspecified, are 0 here: DESIGN CHOICE, unsafe (log 3). Nothing is scheduled: the block waits for its first command
(R103). -/
def State.reset : State := State.powerOn Config.default 0 0

end Sys2Proof.Machine
end

