-- ==== Sys2Proof/Machine/Ops.lean ====
section
/-!
DEFINITION. The named operations over the registers (20_memory.md R46, 00_scope.md R16), the derived controller state
(10_state.md R31), and the fault and dispatch operations every meaning shares (60_exceptions.md R86 to R90, R96, R97).
-/

namespace Sys2Proof.Machine

/-- The derived state of the Timer Controller (R31). -/
def controllerState (s : State) : ControllerState :=
  match s.mode with
  | .normal => .uninitialized
  | .ctc => if s.cs = disabled then .stopped else .running

/-- `setWaveformMode` (R46): `MODE <- m`. -/
def setWaveformMode (m : Mode) (s : State) : State := { s with mode := m }

/-- `setClockSelect` (R46): `CS <- c`. -/
def setClockSelect (c : Selector) (s : State) : State := { s with cs := c }

/-- `setCompareValue` (R46): `COMPARE <- v`, a `W`-bit register (R23). -/
def setCompareValue (v : Nat) (s : State) : State := { s with compareReg := v % 2 ^ s.params.width }

/-- `setCounter` (R46): `CNT <- v`, a `W`-bit register (R24). -/
def setCounter (v : Nat) (s : State) : State := { s with cnt := v % 2 ^ s.params.width }

/-- `readCounter` (R46). Only the TICK rule reads the counter; no command does. -/
def readCounter (s : State) : Nat := s.cnt

/-- `SAVED_CS <- c` (R25). -/
def setSavedSelect (c : Selector) (s : State) : State := { s with savedCs := c }

/-- `IE <- b` (R26). -/
def setEnable (b : Bool) (s : State) : State := { s with ie := b }

/-- `HANDLER <- h` (R27). -/
def setHandler (h : Token) (s : State) : State := { s with handler := h }

/-- `respond(v)` (R16, R57). -/
def respond (v : Response) (s : State) : State := { s with responses := s.responses ++ [v] }

/-- `emit DISPATCH(h)` (R16, R90). -/
def emitDispatch (h : Token) (s : State) : State := { s with dispatches := s.dispatches ++ [h] }

end Sys2Proof.Machine
end

