-- ==== Sys2Proof/Machine/Flags.lean ====
section
/-!
DEFINITION. The one-bit status elements. The block has no condition code (10_state.md R35); what it has are the fault bits
(R29, 60_exceptions.md R96 to R98) and the pending bit (R28, R88, R89).
-/

namespace Sys2Proof.Machine

/-- `PEND <- b` (R28). -/
def setPend (b : Bool) (s : State) : State := { s with pend := b }

/-- `raise Fault(kind)` (R16, R96, R97): sets the kind's sticky bit and changes nothing else. This is all the block has
of taking an exception: it saves nothing and enters no handler (R93, R95). -/
def raiseFault (k : FaultKind) (s : State) : State :=
  match k with
  | .beforeInit => { s with faultBeforeInit := true }
  | .reservedOpcode => { s with faultReservedOp := true }

/-- `Match()` (R86 to R88): while enabled, dispatch the stored handler; while masked, latch the match if the parameter
says so, and otherwise leave no trace. -/
def matchEvent (s : State) : State :=
  if s.ie then emitDispatch s.handler s
  else if s.params.maskedMatchPends then setPend true s
  else s

/-- Pending delivery (R89): a latched match is cleared and dispatched once, with the handler just stored. -/
def deliverPending (h : Token) (s : State) : State :=
  if s.pend then emitDispatch h (setPend false s) else s

end Sys2Proof.Machine
end

