-- ==== Sys2Proof/Machine/Counter.lean ====
section
/-!
DEFINITION. What a step performs besides a command: the TICK of the counter clock (60_exceptions.md R83 to R88), power-on
reset (70_reset_and_hazards.md R103), and taking the next event off the schedule (20_memory.md R41).
-/

namespace Sys2Proof.Machine

/-- A TICK step is enabled exactly while the controller is running (R83). -/
def tickEnabled (s : State) : Bool := decide (controllerState s = .running)

/-- TICK (R84): clear and match when the counter has reached the compare value, else count modulo `2^W`. -/
def tick (s : State) : State :=
  if readCounter s = s.compareReg then matchEvent (setCounter 0 s)
  else setCounter (readCounter s + 1) s

/-- An offered clock edge: a TICK when one is enabled; otherwise the clock source is disconnected, no TICK occurs and
nothing changes (R83; DESIGN CHOICE that the schedule may offer it, log 6). -/
def offerTick (s : State) : State := if tickEnabled s then tick s else s

/-- Power-on reset of the whole block (R103): every element of R36, and the record of responses, start afresh. The
parameters and what is still scheduled stay. -/
def powerOnReset (compareDraw cntDraw : Nat) (s : State) : State :=
  { State.powerOn s.params compareDraw cntDraw with schedule := s.schedule }

/-- The next event and the state without it; none when the schedule is exhausted. -/
def fetch (s : State) : Option (Event × State) :=
  match s.schedule with
  | [] => none
  | e :: rest => some (e, { s with schedule := rest })

/-- Have the host issue a command word as the very next event. -/
def issueCommand (w : Nat) (s : State) : State :=
  { s with schedule := .command w :: s.schedule }

/-- The command word whose bits the opcode table numbers as `w`, the table's `ARG` being 32 bits wide (R47). On a wider
command port it is the word of the same `OP` and `ARG` (log 21). -/
def tableCommand (argWidth nbits w : Nat) : Nat :=
  joinFields argWidth (opField 32 (tableBits nbits w)) (argField 32 (tableBits nbits w))

end Sys2Proof.Machine
end

