-- ==== Sys2Proof/Machine/Callback.lean ====
section
/-!
DEFINITION. The Interrupt Dispatch commands ATTACH and DETACH (42_interrupt_dispatch.md R78, R79), and the reserved opcodes
(30_encoding.md R50, 60_exceptions.md R97).
-/

namespace Sys2Proof.Machine

/-- ATTACH (R78): stores the handler, enables the interrupt and delivers a latched match (R89), in every controller
state (D29). -/
def execAttach (handler : Token) (s : State) : Host.Outcome State Fault Refusal :=
  .next (respond .ack (deliverPending handler (setEnable true (setHandler handler s))))

/-- DETACH (R79): masks the interrupt and keeps the handler and a latched match. -/
def execDetach (s : State) : Host.Outcome State Fault Refusal :=
  .next (respond .ack (setEnable false s))

/-- A reserved opcode (R50, R97): its fault bit, no response. All eight act alike. -/
def execReserved (_op : Opcode) (s : State) : Host.Outcome State Fault Refusal :=
  .next (raiseFault .reservedOpcode s)

end Sys2Proof.Machine
end

