-- ==== Sys2Proof/Machine/Parameters.lean ====
section
/-!
DEFINITION. What follows from the parameters (00_scope.md R8 to R12): `MAXCOUNT`, `NDIV`, `DMAX`, the width the argument
field needs, and which parameters are legal.
-/

namespace Sys2Proof

/-- `MAXCOUNT = 2^W - 1` (R9, 90_conflicts.md C1). -/
def Params.maxCount (p : Params) : Nat := 2 ^ p.width - 1

/-- `NDIV`, the number of divisors (R10). -/
def Params.ndiv (p : Params) : Nat := p.divs.length

/-- `DMAX = DIVS[NDIV-1]`, the largest divisor (R10). For an empty table, which R10 excludes, it is 0. -/
def Params.dmax (p : Params) : Nat := p.divs.getLastD 0

/-- What R12 and 90_conflicts.md C7 ask of `ARG_W`: it is 32; where `DMAX * 2^W >= 2^32` it is widened until the field
expresses the saturating periods, those above `DMAX * 2^W`. How far beyond that is left free (log 21). -/
def Params.argWidthOk (p : Params) : Bool :=
  if p.dmax * 2 ^ p.width < 2 ^ 32 then decide (p.argWidth = 32)
  else decide (p.dmax * 2 ^ p.width < 2 ^ p.argWidth)

/-- What R8, R10, R12 and R53 ask of the parameters: `W >= 1`, `DIVS` a strictly ascending list of positive integers
with at most 6 entries, and an argument field wide enough. That it is not empty is DEDUCED: R10 names its last entry `DMAX` (log 10). -/
def Params.wf (p : Params) : Bool :=
  decide (1 ≤ p.width) && decide (p.divs ≠ []) && decide (p.ndiv ≤ 6) &&
    p.divs.all (fun d => decide (1 ≤ d)) && decide (p.divs.Pairwise (· < ·)) && p.argWidthOk

end Sys2Proof
end

