-- ==== Sys2Proof/Machine/Resolver.lean ====
section
/-!
DEFINITION. The Period Resolver (40_period_resolver.md R60 to R70): a pure function of the parameters and the period, with
the selector mapping of 30_encoding.md R53.
-/

namespace Sys2Proof.Machine

/-- `ceil_div(a, b) = (a + b - 1) div b` (R15). -/
def ceilDiv (a b : Nat) : Nat := (a + b - 1) / b

/-- `sel(DIVS[i]) = i + 1`, a 3-bit code (R53). -/
def sel (p : Params) (d : Nat) : Selector := BitVec.ofNat 3 (p.divs.idxOf d + 1)

/-- `div(s) = DIVS[s - 1]`; none for `DISABLED` and for a reserved code (R53, R54). -/
def divisorOf (p : Params) (s : Selector) : Option Nat :=
  if s = disabled then none else p.divs[s.toNat - 1]?

/-- `counts(period, d) = ceil_div(period, d) - 1` (R62). -/
def counts (period d : Nat) : Nat := ceilDiv period d - 1

/-- The fit condition `counts <= MAXCOUNT` (R63). -/
def fits (p : Params) (period d : Nat) : Bool := decide (counts period d ≤ p.maxCount)

/-- `Resolve(period)` (R60): the stop encoding for 0 (R61), the first divisor that fits (R63, R65), else saturation
(R64). -/
def resolve (p : Params) (period : Nat) : Selector × Nat :=
  if period = 0 then (disabled, 0)
  else
    match p.divs.find? (fits p period) with
    | some d => (sel p d, counts period d)
    | none => (sel p p.dmax, p.maxCount)

/-- The period a selector and a compare value realise, in input-clock ticks: `(c + 1) * div(s)` (R68); none when the
counter does not advance. -/
def realisedPeriod (p : Params) (s : Selector) (c : Nat) : Option Nat :=
  (divisorOf p s).map (fun d => (c + 1) * d)

end Sys2Proof.Machine
end

