-- ==== Sys2Proof/Machine/Timer.lean ====
section
/-!
DEFINITION. The Timer Controller's commands INIT, SETPERIOD, START, STOP, RESET and GETCB (41_timer_controller.md R71 to
R76), each one indivisible step (20_memory.md R40).
-/

namespace Sys2Proof.Machine

/-- What SETPERIOD, START and STOP do while `Uninitialized` (R96): the fault bit, and `ack` all the same (R57). -/
def commandBeforeInit (s : State) : State := respond .ack (raiseFault .beforeInit s)

/-- INIT (R71). -/
def execInit (s : State) : Host.Outcome State Fault Refusal :=
  .next (respond .ack (setCounter 0 (setClockSelect disabled (setWaveformMode .ctc s))))

/-- What SETPERIOD stores for a resolved pair (R72): the stop encoding clears the remembered selector too (D14,
90_conflicts.md C3). -/
def storePeriod (r : Selector × Nat) (s : State) : State :=
  if r.1 = disabled then setCompareValue 0 (setSavedSelect disabled (setClockSelect disabled s))
  else setSavedSelect r.1 (setClockSelect r.1 (setCompareValue r.2 s))

/-- SETPERIOD (R72). -/
def execSetperiod (period : Nat) (s : State) : Host.Outcome State Fault Refusal :=
  if controllerState s = .uninitialized then .next (commandBeforeInit s)
  else .next (respond .ack (storePeriod (resolve s.params period) s))

/-- START (R73): re-applies the remembered selector, if there is one. -/
def execStart (s : State) : Host.Outcome State Fault Refusal :=
  if controllerState s = .uninitialized then .next (commandBeforeInit s)
  else if s.savedCs = disabled then .next (respond .ack s)
  else .next (respond .ack (setClockSelect s.savedCs s))

/-- STOP (R74). -/
def execStop (s : State) : Host.Outcome State Fault Refusal :=
  if controllerState s = .uninitialized then .next (commandBeforeInit s)
  else .next (respond .ack (setClockSelect disabled s))

/-- RESET (R75): zeroes the counter, in every controller state. -/
def execReset (s : State) : Host.Outcome State Fault Refusal :=
  .next (respond .ack (setCounter 0 s))

/-- GETCB (R76): answers the handler and changes nothing. -/
def execGetcb (s : State) : Host.Outcome State Fault Refusal :=
  .next (respond (.token s.handler) s)

end Sys2Proof.Machine
end

