-- ==== Sys2Proof/Machine/Dispatch.lean ====
section
/-! DEFINITION. One arm per command: the meaning of each row of spec/opcode_table.json. -/

namespace Sys2Proof.Machine

def exec (i : Instr) (s : State) : Host.Outcome State Fault Refusal :=
  match i with
  | .init => Sys2Proof.Machine.execInit s
  | .setperiod period => Sys2Proof.Machine.execSetperiod period s
  | .start => Sys2Proof.Machine.execStart s
  | .stop => Sys2Proof.Machine.execStop s
  | .reset => Sys2Proof.Machine.execReset s
  | .attach handler => Sys2Proof.Machine.execAttach handler s
  | .detach => Sys2Proof.Machine.execDetach s
  | .getcb => Sys2Proof.Machine.execGetcb s
  | .reserved op => Sys2Proof.Machine.execReserved op s

end Sys2Proof.Machine
end

