-- ==== Sys2Proof/Machine/Step.lean ====
section
/-!
DEFINITION. One step of the block: the next event of the schedule, performed whole (20_memory.md R40, R41). A command is
decoded and performed, a clock edge is offered to the counter, power-on reset resets the block. With nothing scheduled the
block waits (R103; log 7).
-/

namespace Sys2Proof.Machine

/-- `s` with the instruction whose bits the opcode table numbers as `w` issued as the very next command. -/
def State.withFetchWord (s : State) (nbits w : Nat) : State := 
  issueCommand (tableCommand s.params.argWidth nbits w) s

/-- One step. -/
def step (s : State) : Host.Outcome State Fault Refusal :=
  match fetch s with
  | none => .next s
  | some (.command w, s') => exec (decode s'.params.argWidth w) s'
  | some (.tick, s') => .next (offerTick s')
  | some (.powerOn compareDraw cntDraw, s') => .next (powerOnReset compareDraw cntDraw s')

end Sys2Proof.Machine
end

