-- ==== Sys2Proof/Machine/Assembler.lean ====
section
/-!
DEFINITION. The spec's assembly syntax (30_encoding.md R58): one command per line, mnemonics case-insensitive, numbers decimal
or hexadecimal with `0x`. A line is a list of characters.
-/

namespace Sys2Proof.Machine

/-- The value of a decimal digit. -/
def decimalDigit (c : Char) : Option Nat :=
  if '0'.toNat ≤ c.toNat ∧ c.toNat ≤ '9'.toNat then some (c.toNat - '0'.toNat) else none

/-- The value of a hexadecimal digit, in either case. -/
def hexDigit (c : Char) : Option Nat :=
  if '0'.toNat ≤ c.toNat ∧ c.toNat ≤ '9'.toNat then some (c.toNat - '0'.toNat)
  else if 'a'.toNat ≤ c.toNat ∧ c.toNat ≤ 'f'.toNat then some (c.toNat - 'a'.toNat + 10)
  else if 'A'.toNat ≤ c.toNat ∧ c.toNat ≤ 'F'.toNat then some (c.toNat - 'A'.toNat + 10)
  else none

/-- Digits read most significant first, in a base; none at a character that is no digit. -/
def digitsValue (base : Nat) (digit : Char → Option Nat) : Nat → List Char → Option Nat
  | acc, [] => some acc
  | acc, c :: cs => (digit c).bind (fun v => digitsValue base digit (acc * base + v) cs)

/-- A number: `0x` and at least one hexadecimal digit, or at least one decimal digit (R58). -/
def parseNumber : List Char → Option Nat
  | [] => none
  | '0' :: 'x' :: c :: cs => digitsValue 16 hexDigit 0 (c :: cs)
  | c :: cs => digitsValue 10 decimalDigit 0 (c :: cs)

/-- An operand of the assembler: a number that fits in the operand's bits, 32 in R58; it refuses any other (R58). -/
def parseOperand (bits : Nat) (t : List Char) : Option Nat :=
  (parseNumber t).bind (fun n => if n < 2 ^ bits then some n else none)

/-- The letter that is compared: mnemonics are case-insensitive (R58). -/
def upper (c : Char) : Char :=
  if 'a'.toNat ≤ c.toNat ∧ c.toNat ≤ 'z'.toNat then Char.ofNat (c.toNat - 32) else c

/-- The command of a mnemonic, in capitals, and its operands (R58): the period fits in `ARG_W` bits, which are R58's 32 by
default (log 21), and the token in its 32. The reserved opcodes have no mnemonic in R58. -/
def assembleUpper (argWidth : Nat) : List Char → List (List Char) → Option Instr
  | ['I', 'N', 'I', 'T'], [] => some .init
  | ['S', 'E', 'T', 'P', 'E', 'R', 'I', 'O', 'D'], [t] => (parseOperand argWidth t).map .setperiod
  | ['S', 'T', 'A', 'R', 'T'], [] => some .start
  | ['S', 'T', 'O', 'P'], [] => some .stop
  | ['R', 'E', 'S', 'E', 'T'], [] => some .reset
  | ['A', 'T', 'T', 'A', 'C', 'H'], [t] =>
    (parseOperand 32 t).map (fun n => .attach (BitVec.ofNat 32 n))
  | ['D', 'E', 'T', 'A', 'C', 'H'], [] => some .detach
  | ['G', 'E', 'T', 'C', 'B'], [] => some .getcb
  | _, _ => none

/-- The command of a line already cut into words. -/
def assembleWords (argWidth : Nat) : List (List Char) → Option Instr
  | [] => none
  | m :: operands => assembleUpper argWidth (m.map upper) operands

/-- Cut a line into words at blanks; a semicolon begins a comment, as in R58's listing (DEDUCED, log 14). `word` is the
word being read, last character first. -/
def lineWords : List Char → List Char → List (List Char)
  | word, [] => if word = [] then [] else [word.reverse]
  | word, c :: cs =>
    if c = ';' then (if word = [] then [] else [word.reverse])
    else if c = ' ' ∨ c = '\t' then (if word = [] then lineWords [] cs else word.reverse :: lineWords [] cs)
    else lineWords (c :: word) cs

/-- Assemble one line to its command word (R58). -/
def assemble (argWidth : Nat) (line : List Char) : Option Nat :=
  (assembleWords argWidth (lineWords [] line)).map (encode argWidth)

end Sys2Proof.Machine
end

