-- ==== Sys2Proof/Machine/Timing.lean ====
section
/-!
DEFINITION. Numbers about time that no step reads (00_scope.md R11, R14; 60_exceptions.md R85, R100; 70_reset_and_hazards.md
R111), for claims about elapsed time.
-/

namespace Sys2Proof.Machine

/-- The number of TICKs that do not match before the next one that does: `(COMPARE - CNT) mod 2^W` (R85). The next match
is one TICK later. -/
def ticksBeforeMatch (s : State) : Nat :=
  (s.compareReg + 2 ^ s.params.width - s.cnt) % 2 ^ s.params.width

/-- The block's period in input-clock ticks, `(COMPARE + 1) * div(CS)` (R100); none when the counter does not advance. -/
def blockPeriod (s : State) : Option Nat := realisedPeriod s.params s.cs s.compareReg

/-- `P_PHASE` (R14): the `n`-th draw, in `1 .. d` for a divisor `d >= 1`. -/
def phase (n d : Nat) : Nat := Config.phaseDraw n % d + 1

/-- Input-clock ticks from the command that connects the clock to the first match, for the `n`-th phase draw: the phase,
then one divisor for each TICK still to count (R111). -/
def ticksToFirstMatch (n : Nat) (s : State) : Option Nat :=
  (divisorOf s.params s.cs).map (fun d => phase n d + ticksBeforeMatch s * d)

/-- Input-clock ticks in seconds, `t / F_CLK` (R11, R111). Were `F_CLK` 0, which the free value does not exclude, this would
be 0 by Lean's division (log 23). -/
def seconds (t : Nat) : Rat := (t : Rat) / Config.fClk

end Sys2Proof.Machine
end

