-- ==== Sys2Proof/Safety.lean ====
section
/-!
DEFINITION. The terms claims use: no fault recorded (60_exceptions.md R98), the invariants of the block (10_state.md R28, R32,
R34; 30_encoding.md R54), the boot order software keeps (70_reset_and_hazards.md R105), and runs (R112).
-/

namespace Sys2Proof.Machine

/-- "Both fault bits are 0" (R98). -/
def State.noFault (s : State) : Bool := !s.faultBeforeInit && !s.faultReservedOp

/-- `CS = DISABLED` or `CS = SAVED_CS`; and `MODE = NORMAL` implies `CS = DISABLED` (R32). -/
def State.clockSelectOk (s : State) : Prop :=
  (s.cs = disabled ∨ s.cs = s.savedCs) ∧ (s.mode = .normal → s.cs = disabled)

/-- `PEND = 1` implies `IE = 0` (R34), and `PEND` is 0 where the parameter is false (R28, R89). -/
def State.pendOk (s : State) : Prop :=
  (s.pend = true → s.ie = false) ∧ (s.params.maskedMatchPends = false → s.pend = false)

/-- No reserved selector code stands in `CS` or `SAVED_CS` (R54). -/
def State.selectorsOk (s : State) : Prop :=
  s.cs.toNat ≤ s.params.ndiv ∧ s.savedCs.toNat ≤ s.params.ndiv

/-- `COMPARE` and `CNT` are `W`-bit values (R23, R24). -/
def State.countersOk (s : State) : Prop :=
  s.compareReg ≤ s.params.maxCount ∧ s.cnt ≤ s.params.maxCount

/-- The invariant of the block: legal parameters and the four above. -/
structure State.Inv (s : State) : Prop where
  params : s.params.wf = true
  clockSelect : s.clockSelectOk
  pend : s.pendOk
  selectors : s.selectorsOk
  counters : s.countersOk

/-- The elements of R20 alone: the model's own records of responses and of what is scheduled are blanked. -/
def State.registers (s : State) : State := { s with responses := [], schedule := [] }

/-- `t` follows `s` after exactly `k` steps. -/
def reaches (k : Nat) (s t : State) : Prop := Host.Core.run Sys2Proof.core k s = .next t

/-- Is the event a power-on reset? -/
def Event.isPowerOn : Event → Bool
  | .powerOn _ _ => true
  | .command _ => false
  | .tick => false

/-- Is the event an ATTACH command, on a port with `ARG_W = argWidth`? -/
def Event.isAttach (argWidth : Nat) : Event → Bool
  | .command w => (match decode argWidth w with | .attach _ => true | _ => false)
  | .tick => false
  | .powerOn _ _ => false

/-- Does software keep the boot order (R105)? `initialised` says whether INIT has run; SETPERIOD, START and STOP need it;
no reserved opcode is issued. A power-on reset asks for INIT again. -/
def bootOrder (argWidth : Nat) : Bool → List Event → Bool
  | _, [] => true
  | initialised, .tick :: rest => bootOrder argWidth initialised rest
  | _, .powerOn _ _ :: rest => bootOrder argWidth false rest
  | initialised, .command w :: rest =>
    match decode argWidth w with
    | .init => bootOrder argWidth true rest
    | .setperiod _ => initialised && bootOrder argWidth initialised rest
    | .start => initialised && bootOrder argWidth initialised rest
    | .stop => initialised && bootOrder argWidth initialised rest
    | .reset => bootOrder argWidth initialised rest
    | .attach _ => bootOrder argWidth initialised rest
    | .detach => bootOrder argWidth initialised rest
    | .getcb => bootOrder argWidth initialised rest
    | .reserved _ => false

/-- The command the next step performs, if the next event is one. -/
def State.nextCommand (s : State) : Option Instr :=
  match s.schedule with
  | .command w :: _ => some (decode s.params.argWidth w)
  | .tick :: _ => none
  | .powerOn _ _ :: _ => none
  | [] => none

/-- Is the next event a power-on reset? -/
def State.nextIsPowerOn (s : State) : Bool :=
  match s.schedule with
  | e :: _ => e.isPowerOn
  | [] => false

/-- Does the command need INIT first (R96)? -/
def needsInit : Instr → Bool
  | .init => false
  | .setperiod _ => true
  | .start => true
  | .stop => true
  | .reset => false
  | .attach _ => false
  | .detach => false
  | .getcb => false
  | .reserved _ => false

/-- What the command port answers to a command performed in `s` (R48, R57). -/
def expectedResponse (i : Instr) (s : State) : List Response :=
  match i with
  | .init => [.ack]
  | .setperiod _ => [.ack]
  | .start => [.ack]
  | .stop => [.ack]
  | .reset => [.ack]
  | .attach _ => [.ack]
  | .detach => [.ack]
  | .getcb => [.token s.handler]
  | .reserved _ => []

/-- R77's table: the controller state after a command, from the one before it; `saved` is `SAVED_CS`. -/
def controllerAfter (c : ControllerState) (saved : Selector) (i : Instr) : ControllerState :=
  match i with
  | .init => .stopped
  | .setperiod period =>
    if c = .uninitialized then .uninitialized else if period = 0 then .stopped else .running
  | .start => if c = .stopped ∧ saved ≠ disabled then .running else c
  | .stop => if c = .uninitialized then .uninitialized else .stopped
  | .reset => c
  | .attach _ => c
  | .detach => c
  | .getcb => c
  | .reserved _ => c

end Sys2Proof.Machine
end

