-- ==== Sys2Proof/Certificates/Slice0/Obligations.lean ====
section
/-!
DEFINITION. The statements for the provers. Each docstring names the rule of spec/ it formalises; a clause that rests on a
choice of the model says so and names its log entry.
-/

open Sys2Proof Sys2Proof.Machine

/-! ### Encoding -/

/-- Words of 95_test_vectors.md L2.2, of 36 bits with `ARG_W = 32`, decode to the commands listed there. -/
def Obligations.DecodesWrittenWords : Prop :=
  decode 32 0x0DEADBEEF = .init ∧ decode 32 0x1000F4240 = .setperiod 1000000 ∧
  decode 32 0x200000000 = .start ∧ decode 32 0x300000000 = .stop ∧ decode 32 0x400000000 = .reset ∧
  decode 32 0x500001234 = .attach 0x1234#32 ∧ decode 32 0x600000000 = .detach ∧
  decode 32 0x700000000 = .getcb ∧ decode 32 0x800000000 = .reserved 0x8#4 ∧
  decode 32 0xFFFFFFFFF = .reserved 0xF#4

/-- R47, R48, R56: every word is its two fields, `OP` above `ARG_W` bits of `ARG`, and the opcode alone selects the command.
R47's word is the case `n = 32`; a wider `ARG` is that of 90_conflicts.md C7 (log 21), and the token of ATTACH is its low
32 bits (log 22), which for `n = 32` is `ARG` whole. -/
def Obligations.OpFieldSelectsInstruction : Prop :=
  (∀ (n w : Nat), w < 2 ^ (n + 4) →
    w = (opField n w).toNat * 2 ^ n + argField n w ∧ argField n w < 2 ^ n) ∧
  ∀ (n w : Nat),
    (opField n w = 0x0#4 → decode n w = .init) ∧
    (opField n w = 0x1#4 → decode n w = .setperiod (argField n w)) ∧
    (opField n w = 0x2#4 → decode n w = .start) ∧
    (opField n w = 0x3#4 → decode n w = .stop) ∧
    (opField n w = 0x4#4 → decode n w = .reset) ∧
    (opField n w = 0x5#4 → ∃ h : Token, decode n w = .attach h ∧ h.toNat = argField n w % 2 ^ 32) ∧
    (opField n w = 0x6#4 → decode n w = .detach) ∧
    (opField n w = 0x7#4 → decode n w = .getcb) ∧
    (8 ≤ (opField n w).toNat → decode n w = .reserved (opField n w))

/-- Decoding an encoded well-formed command gives it back, for every command, every operand and every `ARG_W`
(R47, R48, R58); and the decoder reads it from the 36 bits of the opcode table's word. -/
def Obligations.DecodeOfEncode : Prop :=
  (∀ (n : Nat) (i : Instr), i.wf n = true → decode n (encode n i) = i ∧ encode n i < 2 ^ (n + 4)) ∧
  ∀ i : Instr, i.wf 32 = true → decodeTableWord 40 (encode 32 i) = some i

/-- Every word decodes to a well-formed command (R56), whose encoding is the word itself for SETPERIOD and, with
`ARG_W = 32`, for ATTACH, and the word with `ARG = 0` for every other opcode (R49, R50, R58). Of a wider `ARG` ATTACH keeps
the low 32 bits (log 22). -/
def Obligations.EncodeOfDecodeClearsIgnoredBits : Prop :=
  ∀ (n w : Nat), w < 2 ^ (n + 4) →
    (decode n w).wf n = true ∧
    encode n (decode n w) =
      (if opField n w = 0x1#4 ∨ (opField n w = 0x5#4 ∧ n ≤ 32) then w
       else if opField n w = 0x5#4 then joinFields n 0x5#4 (argField n w % 2 ^ 32)
       else joinFields n (opField n w) 0)

/-- R49: for INIT, START, STOP, RESET, DETACH and GETCB every bit of `ARG` is ignored, and the encoder writes 0 there; for
SETPERIOD and ATTACH all 32 bits count, and for SETPERIOD all bits of a wider field do too. -/
def Obligations.IgnoredArgumentBits : Prop :=
  (∀ (op : Opcode) (a : Nat) (s : State), op ∈ [0x0#4, 0x2#4, 0x3#4, 0x4#4, 0x6#4, 0x7#4] →
    step (issueCommand (joinFields s.params.argWidth op a) s) =
      step (issueCommand (joinFields s.params.argWidth op 0) s)) ∧
  (∀ n : Nat, ∀ i ∈ [Instr.init, .start, .stop, .reset, .detach, .getcb], argField n (encode n i) = 0) ∧
  (∀ (op : Opcode) (a b : Nat), op ∈ [0x1#4, 0x5#4] → a < 2 ^ 32 → b < 2 ^ 32 →
    decode 32 (joinFields 32 op a) = decode 32 (joinFields 32 op b) → a = b) ∧
  (∀ (n : Nat) (a b : Nat), a < 2 ^ n → b < 2 ^ n →
    decode n (joinFields n 0x1#4 a) = decode n (joinFields n 0x1#4 b) → a = b)

/-- Every 36-bit word belongs to exactly one row of spec/opcode_table.json, the row of the command it decodes to (the
RESERVED row's mask is the table's, log 9). -/
def Obligations.EveryWordHasOneTableRow : Prop :=
  ∀ w : TableWord,
    (opcodeTable.filter (fun r => r.covers w)).map OpcodeRow.mnemonic = [(decode 32 w.toNat).mnemonic]

/-- R58: a number that fits in 32 bits is the operand of SETPERIOD and ATTACH, one that does not is refused, a command
without an operand has `ARG = 0`, and mnemonics are case-insensitive. With a wider `ARG` a period fits in `ARG_W` bits
(log 21). -/
def Obligations.AssemblerOperands : Prop :=
  (∀ (argWidth : Nat) (t : List Char) (n : Nat), parseNumber t = some n →
    assembleWords argWidth [['S', 'E', 'T', 'P', 'E', 'R', 'I', 'O', 'D'], t] =
        (if n < 2 ^ argWidth then some (.setperiod n) else none) ∧
    assembleWords argWidth [['A', 'T', 'T', 'A', 'C', 'H'], t] =
        (if n < 2 ^ 32 then some (.attach (BitVec.ofNat 32 n)) else none)) ∧
  (∀ argWidth : Nat, assembleWords argWidth [['I', 'N', 'I', 'T']] = some .init ∧
    assembleWords argWidth [['S', 'T', 'A', 'R', 'T']] = some .start ∧
    assembleWords argWidth [['S', 'T', 'O', 'P']] = some .stop ∧
    assembleWords argWidth [['R', 'E', 'S', 'E', 'T']] = some .reset ∧
    assembleWords argWidth [['D', 'E', 'T', 'A', 'C', 'H']] = some .detach ∧
    assembleWords argWidth [['G', 'E', 'T', 'C', 'B']] = some .getcb) ∧
  (∀ (argWidth : Nat) (m : List Char) (operands : List (List Char)),
    assembleWords argWidth (m.map upper :: operands) = assembleWords argWidth (m :: operands))

/-! ### The Period Resolver -/

/-- R53: code `i + 1` selects `DIVS[i]`, `DISABLED` and the codes above `NDIV` select none, `div` undoes `sel`, and the
default table is R53's. -/
def Obligations.SelectorCodes : Prop :=
  (∀ p : Params, p.wf = true →
    divisorOf p disabled = none ∧
    (∀ i d, p.divs[i]? = some d →
      sel p d = BitVec.ofNat 3 (i + 1) ∧ (sel p d).toNat = i + 1 ∧ divisorOf p (sel p d) = some d) ∧
    (∀ s : Selector, p.ndiv < s.toNat → divisorOf p s = none)) ∧
  [0b000#3, 0b001#3, 0b010#3, 0b011#3, 0b100#3, 0b101#3, 0b110#3, 0b111#3].map (divisorOf Config.default) =
    [none, some 1, some 8, some 64, some 256, some 1024, none, none]

/-- R61: the zero period resolves to the stop encoding. -/
def Obligations.ResolveZero : Prop :=
  ∀ p : Params, resolve p 0 = (disabled, 0)

/-- R62: `counts + 1` is the exact ceiling of `period / d`; a period below the divisor gives 0, a multiple of it gives
`period / d - 1`. -/
def Obligations.CountsIsCeilingMinusOne : Prop :=
  ∀ period d : Nat, 1 ≤ period → 1 ≤ d →
    counts period d * d < period ∧ period ≤ (counts period d + 1) * d ∧
    (period < d → counts period d = 0) ∧
    (d ∣ period → counts period d = period / d - 1)

/-- R63: the divisor is the first of the ascending table whose count fits. -/
def Obligations.ResolvePicksFirstFit : Prop :=
  ∀ (p : Params) (period i d : Nat), p.wf = true → 1 ≤ period → p.divs[i]? = some d →
    counts period d ≤ p.maxCount →
    (∀ j e, j < i → p.divs[j]? = some e → p.maxCount < counts period e) →
    resolve p period = (sel p d, counts period d)

/-- R64: no divisor fits exactly when the count for `DMAX` is above `MAXCOUNT`, that is when the period is above
`DMAX * 2^W`; then the result is `(sel(DMAX), MAXCOUNT)`. -/
def Obligations.ResolveSaturates : Prop :=
  ∀ (p : Params) (period : Nat), p.wf = true → 1 ≤ period →
    ((∀ d ∈ p.divs, p.maxCount < counts period d) ↔ p.maxCount < counts period p.dmax) ∧
    (p.maxCount < counts period p.dmax ↔ p.dmax * 2 ^ p.width < period) ∧
    (p.dmax * 2 ^ p.width < period → resolve p period = (sel p p.dmax, p.maxCount))

/-- R65: the selector is `sel(d)` of the chosen divisor, the first that fits or else `DMAX`; for a period of at least 1 it
is neither `DISABLED` nor reserved; and the compare value is at most `MAXCOUNT` (R60). -/
def Obligations.ResolvedSelector : Prop :=
  ∀ (p : Params) (period : Nat), p.wf = true →
    (resolve p period).2 ≤ p.maxCount ∧
    (1 ≤ period →
      (resolve p period).1 = sel p ((p.divs.find? (fits p period)).getD p.dmax) ∧
      (resolve p period).1 ≠ disabled ∧ (resolve p period).1.toNat ≤ p.ndiv ∧
      ∃ d ∈ p.divs, divisorOf p (resolve p period).1 = some d)

/-- R67: the closed form of the selection for every parameter, and the seven rows of its table for the defaults. -/
def Obligations.ResolveClosedForm : Prop :=
  (∀ (p : Params) (period i d : Nat), p.wf = true → 1 ≤ period → p.divs[i]? = some d →
    period ≤ d * 2 ^ p.width → (∀ j e, j < i → p.divs[j]? = some e → e * 2 ^ p.width < period) →
    resolve p period = (BitVec.ofNat 3 (i + 1), counts period d)) ∧
  (∀ (p : Params) (period : Nat), p.wf = true → p.dmax * 2 ^ p.width < period →
    resolve p period = (BitVec.ofNat 3 p.ndiv, p.maxCount)) ∧
  (∀ period : Nat, resolve Config.default period =
    if period = 0 then (0b000#3, 0)
    else if period ≤ 65536 then (0b001#3, period - 1)
    else if period ≤ 524288 then (0b010#3, ceilDiv period 8 - 1)
    else if period ≤ 4194304 then (0b011#3, ceilDiv period 64 - 1)
    else if period ≤ 16777216 then (0b100#3, ceilDiv period 256 - 1)
    else if period ≤ 67108864 then (0b101#3, ceilDiv period 1024 - 1)
    else (0b101#3, 65535))

/-- R68: the realised period `(c + 1) * div(s)`: without saturation never below the request and less than one prescaled
tick above it, with saturation `DMAX * 2^W` and below the request. -/
def Obligations.RealisedPeriodBounds : Prop :=
  ∀ (p : Params) (period : Nat), p.wf = true → 1 ≤ period →
    ∃ d q, divisorOf p (resolve p period).1 = some d ∧
      realisedPeriod p (resolve p period).1 (resolve p period).2 = some q ∧
      q = ((resolve p period).2 + 1) * d ∧
      (period ≤ p.dmax * 2 ^ p.width → period ≤ q ∧ q ≤ period + d - 1) ∧
      (p.dmax * 2 ^ p.width < period → q = p.dmax * 2 ^ p.width ∧ q < period)

/-- R69: every two saturating periods resolve alike. -/
def Obligations.SaturationIsConstant : Prop :=
  ∀ (p : Params) (a b : Nat), p.wf = true → p.dmax * 2 ^ p.width < a → p.dmax * 2 ^ p.width < b →
    resolve p a = resolve p b ∧ resolve p a = (sel p p.dmax, p.maxCount)

/-- R12 and 90_conflicts.md C7: `ARG_W` is 32 unless `DMAX * 2^W >= 2^32`, and whatever the legal parameters every result
of the resolver is that of some period a command word of `ARG_W + 4` bits carries, a saturating one included; for the
defaults a period below `2^27` does. -/
def Obligations.ArgumentReachesEveryResult : Prop :=
  Config.default.argWidth = 32 ∧
  (∀ p : Params, p.wf = true → p.dmax * 2 ^ p.width < 2 ^ 32 → p.argWidth = 32) ∧
  (∀ p : Params, p.wf = true →
    (∀ period : Nat, ∃ w a, w < 2 ^ (p.argWidth + 4) ∧ decode p.argWidth w = .setperiod a ∧
      resolve p a = resolve p period) ∧
    (∃ w a, w < 2 ^ (p.argWidth + 4) ∧ decode p.argWidth w = .setperiod a ∧ p.dmax * 2 ^ p.width < a)) ∧
  (∀ period : Nat, ∃ a, a < 2 ^ 27 ∧ resolve Config.default a = resolve Config.default period)

/-- R70: once INIT has run, SETPERIOD rejects no period and reports nothing: `ack`, and both fault bits as they were. -/
def Obligations.EveryPeriodAccepted : Prop :=
  ∀ (period : Nat) (s : State), controllerState s ≠ .uninitialized →
    ∃ t, exec (.setperiod period) s = .next t ∧ t.responses = s.responses ++ [.ack] ∧
      t.faultBeforeInit = s.faultBeforeInit ∧ t.faultReservedOp = s.faultReservedOp

/-! ### Timer Controller commands. Each result is the whole next state, so it is its frame too. -/

/-- R71: INIT in every state; it leaves the controller stopped, and a second INIT changes nothing more. -/
def Obligations.InitResult : Prop :=
  ∀ s t : State,
    t = { s with mode := .ctc, cs := disabled, cnt := 0, responses := s.responses ++ [.ack] } →
    exec .init s = .next t ∧ controllerState t = .stopped ∧
    exec .init t = .next { t with responses := t.responses ++ [.ack] }

/-- R72: SETPERIOD before INIT, for a period that resolves to `DISABLED`, and for every other period. -/
def Obligations.SetperiodResult : Prop :=
  ∀ (period : Nat) (s : State),
    (controllerState s = .uninitialized →
      exec (.setperiod period) s =
        .next { s with faultBeforeInit := true, responses := s.responses ++ [.ack] }) ∧
    (controllerState s ≠ .uninitialized → (resolve s.params period).1 = disabled →
      exec (.setperiod period) s =
        .next { s with cs := disabled, savedCs := disabled, compareReg := 0,
                       responses := s.responses ++ [.ack] }) ∧
    (controllerState s ≠ .uninitialized → (resolve s.params period).1 ≠ disabled →
      exec (.setperiod period) s =
        .next { s with cs := (resolve s.params period).1, savedCs := (resolve s.params period).1,
                       compareReg := (resolve s.params period).2,
                       responses := s.responses ++ [.ack] }) ∧
    (s.params.wf = true → ((resolve s.params period).1 = disabled ↔ period = 0))

/-- R73: START before INIT, with nothing to re-apply, and with a remembered selector; while running it changes nothing
(under R32's invariant). -/
def Obligations.StartResult : Prop :=
  ∀ s : State,
    (controllerState s = .uninitialized →
      exec .start s = .next { s with faultBeforeInit := true, responses := s.responses ++ [.ack] }) ∧
    (controllerState s ≠ .uninitialized → s.savedCs = disabled →
      exec .start s = .next { s with responses := s.responses ++ [.ack] }) ∧
    (controllerState s ≠ .uninitialized → s.savedCs ≠ disabled →
      exec .start s = .next { s with cs := s.savedCs, responses := s.responses ++ [.ack] }) ∧
    (controllerState s = .running → s.clockSelectOk →
      exec .start s = .next { s with responses := s.responses ++ [.ack] })

/-- R74: STOP before INIT and after it; while stopped it changes nothing. -/
def Obligations.StopResult : Prop :=
  ∀ s : State,
    (controllerState s = .uninitialized →
      exec .stop s = .next { s with faultBeforeInit := true, responses := s.responses ++ [.ack] }) ∧
    (controllerState s ≠ .uninitialized →
      exec .stop s = .next { s with cs := disabled, responses := s.responses ++ [.ack] }) ∧
    (controllerState s = .stopped →
      exec .stop s = .next { s with responses := s.responses ++ [.ack] })

/-- R75: RESET in every state zeroes the counter and nothing else; the next match is then `COMPARE + 1` TICKs away. -/
def Obligations.ResetResult : Prop :=
  ∀ s t : State, t = { s with cnt := 0, responses := s.responses ++ [.ack] } →
    exec .reset s = .next t ∧ controllerState t = controllerState s ∧
    (s.compareReg ≤ s.params.maxCount → ticksBeforeMatch t + 1 = s.compareReg + 1)

/-- R76: GETCB in every state answers the handler and changes nothing; and it answers `NOOP` as long as no ATTACH has run
since power-on, whatever else has. -/
def Obligations.GetcbResult : Prop :=
  (∀ s : State, exec .getcb s = .next { s with responses := s.responses ++ [.token s.handler] }) ∧
  (∀ (p : Params) (c n : Nat) (events : List Event) (k : Nat),
    (∀ e ∈ events, e.isAttach p.argWidth = false) →
    ∃ t, reaches k { State.powerOn p c n with schedule := events } t ∧
      exec .getcb t = .next { t with responses := t.responses ++ [.token noop] })

/-- R77: the table of transitions, with the fault where the table says so, and no transition for the other commands. -/
def Obligations.ControllerTransitions : Prop :=
  ∀ (i : Instr) (s : State), s.params.wf = true →
    ∃ t, exec i s = .next t ∧
      controllerState t = controllerAfter (controllerState s) s.savedCs i ∧
      (controllerState s = .uninitialized → needsInit i = true → t.faultBeforeInit = true)

/-! ### Interrupt Dispatch commands -/

/-- R78: ATTACH in every state, without and with a latched match. -/
def Obligations.AttachResult : Prop :=
  ∀ (h : Token) (s : State),
    (s.pend = false →
      exec (.attach h) s =
        .next { s with handler := h, ie := true, responses := s.responses ++ [.ack] }) ∧
    (s.pend = true →
      exec (.attach h) s =
        .next { s with handler := h, ie := true, pend := false, dispatches := s.dispatches ++ [h],
                       responses := s.responses ++ [.ack] })

/-- R79: DETACH in every state masks the interrupt and changes nothing else. -/
def Obligations.DetachResult : Prop :=
  ∀ s : State, exec .detach s = .next { s with ie := false, responses := s.responses ++ [.ack] }

/-- R80: after ATTACH h and DETACH, through any steps without another ATTACH (or a power-on reset), GETCB answers h, the
interrupt stays masked and nothing is dispatched. -/
def Obligations.HandlerRetention : Prop :=
  ∀ (h : Token) (s : State), ∃ a d, exec (.attach h) s = .next a ∧ exec .detach a = .next d ∧
    ∀ (events : List Event) (k : Nat),
      (∀ e ∈ events, e.isAttach s.params.argWidth = false ∧ e.isPowerOn = false) →
      ∃ t, reaches k { d with schedule := events } t ∧ t.ie = false ∧ t.dispatches = d.dispatches ∧
        exec .getcb t = .next { t with responses := t.responses ++ [.token h] }

/-- R81: in a step other than a power-on reset, the handler changes only by ATTACH, to its token, and the interrupt is
masked only by DETACH. -/
def Obligations.SlotChangesOnlyByItsCommands : Prop :=
  ∀ s t : State, step s = .next t → s.nextIsPowerOn = false →
    (t.handler ≠ s.handler → s.nextCommand = some (.attach t.handler)) ∧
    (s.ie = true → t.ie = false → s.nextCommand = some .detach) ∧
    (s.ie = false → t.ie = true → s.nextCommand = some (.attach t.handler))

/-- R82: ATTACH and DETACH write only the dispatch elements; the timer commands write none of them; START, STOP and RESET
keep the configured period. -/
def Obligations.CommandFootprints : Prop :=
  (∀ (i : Instr) (s : State), i = .detach ∨ (∃ h, i = .attach h) →
    ∃ t, exec i s = .next t ∧
      t = { s with ie := t.ie, handler := t.handler, pend := t.pend, dispatches := t.dispatches,
                   responses := s.responses ++ [.ack] }) ∧
  (∀ (i : Instr) (s : State),
    i = .init ∨ (∃ p, i = .setperiod p) ∨ i = .start ∨ i = .stop ∨ i = .reset ∨ i = .getcb →
    ∃ t, exec i s = .next t ∧ t.ie = s.ie ∧ t.handler = s.handler ∧ t.pend = s.pend ∧
      t.dispatches = s.dispatches) ∧
  (∀ (i : Instr) (s : State), i = .start ∨ i = .stop ∨ i = .reset →
    ∃ t, exec i s = .next t ∧ t.compareReg = s.compareReg ∧ t.savedCs = s.savedCs ∧
      t.params = s.params)

/-! ### Counting, compare match and dispatch -/

/-- R83: while not running no TICK occurs: an offered edge changes nothing but the schedule it is taken from (that the
schedule may offer it is the model's choice, log 6). -/
def Obligations.TickOnlyWhileRunning : Prop :=
  ∀ (s : State) (rest : List Event), s.schedule = .tick :: rest → controllerState s ≠ .running →
    step s = .next { s with schedule := rest }

/-- R84, R86, R87, R88: a TICK while running, whole: it counts modulo `2^W`, or clears the counter and matches, which
dispatches while enabled, is latched while masked if the parameter says so, and otherwise leaves no trace. -/
def Obligations.TickResult : Prop :=
  ∀ (s : State) (rest : List Event), s.schedule = .tick :: rest → controllerState s = .running →
    (s.cnt ≠ s.compareReg →
      step s = .next { s with cnt := (s.cnt + 1) % 2 ^ s.params.width, schedule := rest }) ∧
    (s.cnt = s.compareReg → s.ie = true →
      step s = .next { s with cnt := 0, dispatches := s.dispatches ++ [s.handler], schedule := rest }) ∧
    (s.cnt = s.compareReg → s.ie = false → s.params.maskedMatchPends = true →
      step s = .next { s with cnt := 0, pend := true, schedule := rest }) ∧
    (s.cnt = s.compareReg → s.ie = false → s.params.maskedMatchPends = false →
      step s = .next { s with cnt := 0, schedule := rest })

/-- R85: from any count the next match is on TICK number `((COMPARE - CNT) mod 2^W) + 1`: the TICKs before it only count,
passing `MAXCOUNT` to 0, and that one clears the counter and, while enabled, dispatches. -/
def Obligations.NextMatchTick : Prop :=
  ∀ (s : State) (n : Nat) (rest : List Event), s.countersOk → controllerState s = .running →
    n = (s.compareReg + 2 ^ s.params.width - s.cnt) % 2 ^ s.params.width →
    s.schedule = List.replicate (n + 1) .tick ++ rest →
    (∀ j, j ≤ n → reaches j s
      { s with cnt := (s.cnt + j) % 2 ^ s.params.width,
               schedule := List.replicate (n + 1 - j) .tick ++ rest }) ∧
    (s.cnt + n) % 2 ^ s.params.width = s.compareReg ∧
    reaches (n + 1) s
      { s with cnt := 0,
               dispatches := if s.ie then s.dispatches ++ [s.handler] else s.dispatches,
               pend := s.pend || (!s.ie && s.params.maskedMatchPends),
               schedule := rest }

/-- R84, R100: one compare match every `COMPARE + 1` TICKs: over `m` periods from count 0 an enabled block dispatches its
handler exactly `m` times and is back at count 0; a masked one dispatches nothing and counts all the same. -/
def Obligations.OneMatchPerPeriod : Prop :=
  ∀ (s : State) (m : Nat) (rest : List Event), s.countersOk → controllerState s = .running → s.cnt = 0 →
    s.schedule = List.replicate (m * (s.compareReg + 1)) .tick ++ rest →
    reaches (m * (s.compareReg + 1)) s
      { s with dispatches := if s.ie then s.dispatches ++ List.replicate m s.handler else s.dispatches,
               pend := s.pend || (!s.ie && s.params.maskedMatchPends && decide (1 ≤ m)),
               schedule := rest }

/-- R89: an ATTACH while a match is latched clears it and emits one dispatch of the handler it has just stored; in a step
other than a power-on reset nothing else clears it; where the parameter is false it stays 0. -/
def Obligations.PendingDelivery : Prop :=
  (∀ (h : Token) (s : State), s.pend = true →
    ∃ t, exec (.attach h) s = .next t ∧ t.pend = false ∧ t.ie = true ∧ t.handler = h ∧
      t.dispatches = s.dispatches ++ [h]) ∧
  (∀ s t : State, step s = .next t → s.nextIsPowerOn = false → s.pend = true → t.pend = false →
    s.nextCommand = some (.attach t.handler)) ∧
  (∀ s t : State, step s = .next t → s.params.maskedMatchPends = false → s.pend = false →
    t.pend = false ∧ t.params.maskedMatchPends = false)

/-- R90, R92: a step other than a power-on reset dispatches nothing or one token, the handler at that step; it does so
exactly by a TICK that matches while enabled or an ATTACH that delivers a latched match. -/
def Obligations.DispatchCauses : Prop :=
  ∀ s t : State, step s = .next t → s.nextIsPowerOn = false →
    (((s.schedule.head? = some .tick ∧ controllerState s = .running ∧ s.cnt = s.compareReg ∧ s.ie = true) ∨
        (s.pend = true ∧ s.nextCommand = some (.attach t.handler))) →
      t.dispatches = s.dispatches ++ [t.handler]) ∧
    (¬((s.schedule.head? = some .tick ∧ controllerState s = .running ∧ s.cnt = s.compareReg ∧ s.ie = true) ∨
        (s.pend = true ∧ s.nextCommand = some (.attach t.handler))) →
      t.dispatches = s.dispatches)

/-! ### Faults -/

/-- R96: SETPERIOD, START and STOP while uninitialized set the fault bit, change nothing else and answer `ack`. -/
def Obligations.BeforeInitFault : Prop :=
  ∀ (i : Instr) (s : State), needsInit i = true → controllerState s = .uninitialized →
    exec i s = .next { s with faultBeforeInit := true, responses := s.responses ++ [.ack] }

/-- R50, R97: a word with a reserved opcode, whatever its argument, sets its fault bit, changes nothing else and has no
response. -/
def Obligations.ReservedOpcodeFault : Prop :=
  (∀ (op : Opcode) (s : State), exec (.reserved op) s = .next { s with faultReservedOp := true }) ∧
  (∀ (op : Opcode) (arg : Nat) (s : State), 8 ≤ op.toNat →
    step (issueCommand (joinFields s.params.argWidth op arg) s) = .next { s with faultReservedOp := true })

/-- R98: no step but a power-on reset clears a fault bit, and no fault stops the block: every step and every command
answers a next state. -/
def Obligations.FaultBitsSticky : Prop :=
  (∀ s t : State, step s = .next t → s.nextIsPowerOn = false →
    (s.faultBeforeInit = true → t.faultBeforeInit = true) ∧
    (s.faultReservedOp = true → t.faultReservedOp = true)) ∧
  (∀ s : State, ∃ t, step s = .next t) ∧
  (∀ (i : Instr) (s : State), ∃ t, exec i s = .next t)

/-- R57: the response to every command, and that a faulting SETPERIOD, START or STOP changes its fault bit alone. -/
def Obligations.CommandResponses : Prop :=
  ∀ (i : Instr) (s : State), ∃ t, exec i s = .next t ∧
    t.responses = s.responses ++ expectedResponse i s ∧
    (needsInit i = true → controllerState s = .uninitialized →
      t = { s with faultBeforeInit := true, responses := s.responses ++ [.ack] })

/-- R42: GETCB changes no element of R20, and every command repeated with no TICK between leaves every element of R20 as
the first left it. -/
def Obligations.CommandsIdempotent : Prop :=
  (∀ s : State, ∃ t, exec .getcb s = .next t ∧ t.registers = s.registers) ∧
  (∀ (i : Instr) (s : State), ∃ t u, exec i s = .next t ∧ exec i t = .next u ∧
    u.registers = t.registers)

/-- R21 to R27: in a step other than a power-on reset each register changes only by the commands and events its rule
names. -/
def Obligations.RegisterWriters : Prop :=
  ∀ s t : State, step s = .next t → s.nextIsPowerOn = false →
    (t.mode ≠ s.mode → s.nextCommand = some .init ∧ t.mode = .ctc) ∧
    (t.cs ≠ s.cs → s.nextCommand = some .init ∨ (∃ p, s.nextCommand = some (.setperiod p)) ∨
      s.nextCommand = some .start ∨ s.nextCommand = some .stop) ∧
    (t.compareReg ≠ s.compareReg → ∃ p, s.nextCommand = some (.setperiod p)) ∧
    (t.cnt ≠ s.cnt → s.nextCommand = some .init ∨ s.nextCommand = some .reset ∨
      (s.schedule.head? = some .tick ∧ controllerState s = .running)) ∧
    (t.savedCs ≠ s.savedCs → ∃ p, s.nextCommand = some (.setperiod p)) ∧
    (t.ie ≠ s.ie → s.nextCommand = some .detach ∨ ∃ h, s.nextCommand = some (.attach h)) ∧
    (t.handler ≠ s.handler → ∃ h, s.nextCommand = some (.attach h)) ∧
    (t.faultBeforeInit ≠ s.faultBeforeInit → controllerState s = .uninitialized ∧
      ((∃ p, s.nextCommand = some (.setperiod p)) ∨ s.nextCommand = some .start ∨
        s.nextCommand = some .stop)) ∧
    (t.faultReservedOp ≠ s.faultReservedOp → ∃ op, s.nextCommand = some (.reserved op)) ∧
    t.params = s.params

/-! ### Power-on reset -/

/-- R36: the elements after power-on reset, for every parameter and every draw of the two unspecified registers, which stay
`W`-bit values; `State.reset` is one such state for the defaults. -/
def Obligations.PowerOnState : Prop :=
  (∀ (p : Params) (c n : Nat) (s : State), s = State.powerOn p c n →
    s.mode = .normal ∧ controllerState s = .uninitialized ∧ s.cs = disabled ∧ s.savedCs = disabled ∧
    s.ie = false ∧ s.handler = noop ∧ s.pend = false ∧ s.faultBeforeInit = false ∧
    s.faultReservedOp = false ∧ s.dispatches = [] ∧ s.countersOk ∧ s.params = p) ∧
  (∃ c n, State.reset = State.powerOn Config.default c n)

/-- R103: power-on reset as an event sets every element of R36 and takes no command. That it may come in the middle of a
run, that it empties the record of responses and that it keeps the parameters and what is still scheduled is the model's
choice (log 18). -/
def Obligations.PowerOnEventResult : Prop :=
  ∀ (s : State) (c n : Nat) (rest : List Event), s.schedule = .powerOn c n :: rest →
    step s = .next { State.powerOn s.params c n with schedule := rest }

/-- R104: after power-on reset the controller is uninitialized, no TICK occurs, the interrupt is masked and the slot holds
`NOOP`; and once INIT has run, START changes nothing. -/
def Obligations.AfterPowerOn : Prop :=
  ∀ (p : Params) (c n : Nat) (s : State), s = State.powerOn p c n →
    s.mode = .normal ∧ controllerState s = .uninitialized ∧ s.cs = disabled ∧
    step { s with schedule := [.tick] } = .next s ∧ s.ie = false ∧ s.handler = noop ∧
    ∃ t, exec .init s = .next t ∧ exec .start t = .next { t with responses := t.responses ++ [.ack] }

/-- R103: the block waits: with nothing scheduled a step changes nothing (that such a step exists is the model's choice,
log 7). -/
def Obligations.WaitsWithNothingScheduled : Prop :=
  ∀ s : State, s.schedule = [] → step s = .next s

/-! ### Invariants and whole-machine rules -/

/-- The invariant holds after power-on reset for every legal parameter and every draw, and at `State.reset`. -/
def Obligations.InvariantAfterPowerOn : Prop :=
  (∀ (p : Params) (c n : Nat), p.wf = true → (State.powerOn p c n).Inv) ∧ State.reset.Inv

/-- Every step keeps the invariant: legal parameters, R32, R34 and R28, R54, and `COMPARE` and `CNT` in range. -/
def Obligations.StepKeepsInvariant : Prop :=
  ∀ s t : State, s.Inv → step s = .next t → t.Inv

/-- R32, kept by every command and event. -/
def Obligations.ClockSelectStaysOk : Prop :=
  ∀ s t : State, s.clockSelectOk → step s = .next t → t.clockSelectOk

/-- R33: once INIT has run, `CS = DISABLED` exactly when the controller is stopped; it does not hold of `SAVED_CS`: STOP
while running leaves the controller stopped with a remembered selector that is not `DISABLED`. -/
def Obligations.DisabledExactlyWhenStopped : Prop :=
  (∀ s : State, s.mode = .ctc → (s.cs = disabled ↔ controllerState s = .stopped)) ∧
  (∀ s : State, s.clockSelectOk → controllerState s = .running →
    ∃ t, exec .stop s = .next t ∧ controllerState t = .stopped ∧ t.savedCs ≠ disabled)

/-- R34: `PEND = 1` implies `IE = 0`, kept by every command and event. -/
def Obligations.PendImpliesMasked : Prop :=
  ∀ s t : State, (s.pend = true → s.ie = false) → step s = .next t → t.pend = true → t.ie = false

/-- R54: a reserved selector code is never written: every step writes `CS` and `SAVED_CS` only as `DISABLED`, `sel(d)` of
a divisor of the table, or a copy of `SAVED_CS`, so with legal parameters no code above `NDIV` gets there. -/
def Obligations.ReservedSelectorsNeverWritten : Prop :=
  (∀ s t : State, s.params.wf = true → step s = .next t →
    (t.cs = s.cs ∨ t.cs = disabled ∨ t.cs = s.savedCs ∨ ∃ d ∈ s.params.divs, t.cs = sel s.params d) ∧
    (t.savedCs = s.savedCs ∨ t.savedCs = disabled ∨ ∃ d ∈ s.params.divs, t.savedCs = sel s.params d)) ∧
  (∀ s t : State, s.params.wf = true → s.selectorsOk → step s = .next t → t.selectorsOk)

/-- A step whose next event is a command word performs the command it decodes to, on the state without that event; and a
command issued at the port is the very next one, as a word of `ARG_W + 4` bits or as the opcode table's 36 bits. -/
def Obligations.StepRunsDecodedCommand : Prop :=
  (∀ (s : State) (w : Nat) (rest : List Event), s.schedule = .command w :: rest →
    step s = exec (decode s.params.argWidth w) { s with schedule := rest }) ∧
  (∀ (s : State) (i : Instr), i.wf s.params.argWidth = true →
    step (issueCommand (encode s.params.argWidth i) s) = exec i s) ∧
  (∀ (s : State) (i : Instr), i.wf 32 = true → i.wf s.params.argWidth = true →
    step (s.withFetchWord 40 (encode 32 i)) = exec i s)

/-- R41, R110: every step answers a next state, in which the first scheduled event, if there is one, is gone and the rest
stands in order, and the parameters are as before. With nothing scheduled no event is performed (log 7). What the step
performs for an event is said by StepRunsDecodedCommand, TickResult, TickOnlyWhileRunning and PowerOnEventResult. -/
def Obligations.EveryStepTakesAtMostFirstEvent : Prop :=
  ∀ s : State, ∃ t, step s = .next t ∧ t.schedule = s.schedule.tail ∧ t.params = s.params

/-- R23, R24: the unspecified power-on values are never read before they are written: two blocks that differ in them alone
answer, dispatch and configure alike over every schedule, and count alike whenever they run. -/
def Obligations.PowerOnDrawsNeverObserved : Prop :=
  ∀ (p : Params) (c n c' n' : Nat) (events : List Event) (k : Nat), ∃ t t',
    reaches k { State.powerOn p c n with schedule := events } t ∧
    reaches k { State.powerOn p c' n' with schedule := events } t' ∧
    { t with compareReg := 0, cnt := 0 } = { t' with compareReg := 0, cnt := 0 } ∧
    (controllerState t = .running → t = t')

/-! ### Rules for software -/

/-- R109: START resumes: with a remembered selector and `CNT <= COMPARE`, the first match after START comes on TICK number
`COMPARE + 1 - CNT`, enabled or masked. -/
def Obligations.StartResumes : Prop :=
  ∀ (s : State) (rest : List Event), controllerState s = .stopped → s.savedCs ≠ disabled → s.countersOk →
    s.cnt ≤ s.compareReg →
    s.schedule = .command (encode s.params.argWidth .start) :: (List.replicate (s.compareReg + 1 - s.cnt) .tick ++ rest) →
    reaches (1 + (s.compareReg - s.cnt)) s
      { s with cs := s.savedCs, cnt := s.compareReg, responses := s.responses ++ [.ack],
               schedule := .tick :: rest } ∧
    reaches (1 + (s.compareReg + 1 - s.cnt)) s
      { s with cs := s.savedCs, cnt := 0,
               dispatches := if s.ie then s.dispatches ++ [s.handler] else s.dispatches,
               pend := s.pend || (!s.ie && s.params.maskedMatchPends),
               responses := s.responses ++ [.ack], schedule := rest }

/-- R107: RESET after a SETPERIOD while running makes the new period take effect from the next TICK: the next match comes
on TICK number `c + 1` for the new compare value `c`, enabled or masked. -/
def Obligations.ResetAppliesNewPeriod : Prop :=
  ∀ (s : State) (period : Nat) (c : Nat) (rest : List Event), s.params.wf = true →
    controllerState s = .running → 1 ≤ period → period < 2 ^ s.params.argWidth →
    c = (resolve s.params period).2 →
    s.schedule = .command (encode s.params.argWidth (.setperiod period)) ::
      .command (encode s.params.argWidth .reset) ::
      (List.replicate (c + 1) .tick ++ rest) →
    ∃ t, t = { s with cs := (resolve s.params period).1, savedCs := (resolve s.params period).1,
                      compareReg := c, responses := s.responses ++ [Response.ack, Response.ack] } ∧
      reaches (2 + c) s { t with cnt := c, schedule := .tick :: rest } ∧
      reaches (2 + (c + 1)) s
        { t with cnt := 0,
                 dispatches := if s.ie then s.dispatches ++ [s.handler] else s.dispatches,
                 pend := s.pend || (!s.ie && s.params.maskedMatchPends),
                 schedule := rest }

/-- R105: software that issues INIT before any SETPERIOD, START or STOP, and no reserved opcode, records no fault. -/
def Obligations.InitFirstRecordsNoFault : Prop :=
  ∀ (s : State) (k : Nat), s.noFault = true → bootOrder s.params.argWidth (decide (s.mode = .ctc)) s.schedule = true →
    ∃ t, reaches k s t ∧ t.noFault = true

/-- R14: the phase draw lies in `1 .. d`; and the ticks to the first match are the phase and one divisor for each TICK
before the match (R111). -/
def Obligations.PhaseInRange : Prop :=
  (∀ n d : Nat, 1 ≤ d → 1 ≤ phase n d ∧ phase n d ≤ d) ∧
  (∀ (s : State) (n d : Nat), divisorOf s.params s.cs = some d → 1 ≤ d →
    ∃ q, ticksToFirstMatch n s = some q ∧ ticksBeforeMatch s * d + 1 ≤ q ∧ q ≤ (ticksBeforeMatch s + 1) * d)
end

