-- ==== Sys2Proof/Laws/Decode.lean ====
section
/-!
SUPPORT. The two fields of a command word (30_encoding.md R47), for every width of `ARG` (00_scope.md R12).
-/

namespace Sys2Proof

theorem argField_lt (n w : Nat) : argField n w < 2 ^ n := Nat.mod_lt _ (Nat.two_pow_pos n)

@[simp] theorem opField_joinFields (n : Nat) (op : Opcode) (arg : Nat) : opField n (joinFields n op arg) = op := by
  have h : arg % 2 ^ n < 2 ^ n := argField_lt n arg
  rw [opField, joinFields, Nat.add_comm, Nat.add_mul_div_right _ _ (Nat.two_pow_pos n), Nat.div_eq_of_lt h,
    Nat.zero_add, BitVec.ofNat_toNat, BitVec.setWidth_eq]

@[simp] theorem argField_joinFields (n : Nat) (op : Opcode) (arg : Nat) :
    argField n (joinFields n op arg) = arg % 2 ^ n := by
  rw [argField, joinFields, Nat.add_comm, Nat.add_mul_mod_self_right, Nat.mod_mod]

/-- Joined fields are a word of `n + 4` bits. -/
theorem joinFields_lt (n : Nat) (op : Opcode) (arg : Nat) : joinFields n op arg < 2 ^ (n + 4) := by
  have h : arg % 2 ^ n < 2 ^ n := argField_lt n arg
  have hop : op.toNat + 1 ≤ 16 := op.isLt
  have := Nat.mul_le_mul_right (2 ^ n) hop
  rw [Nat.add_mul] at this
  rw [joinFields, Nat.pow_add]
  exact Nat.lt_of_lt_of_le (Nat.add_lt_add_left h _) (by omega)

/-- A word of `n + 4` bits is its two fields joined. -/
theorem joinFields_fields {n : Nat} {w : Nat} (hw : w < 2 ^ (n + 4)) :
    joinFields n (opField n w) (argField n w) = w := by
  have hop : w / 2 ^ n < 2 ^ 4 := Nat.div_lt_of_lt_mul (by rwa [← Nat.pow_add])
  rw [joinFields, opField, argField, BitVec.toNat_ofNat, Nat.mod_eq_of_lt hop, Nat.mod_mod, Nat.mul_comm,
    Nat.div_add_mod]

@[simp] theorem decode_joinFields (n : Nat) (op : Opcode) (arg : Nat) :
    decode n (joinFields n op arg) = decodeFields op (arg % 2 ^ n) := by
  rw [decode, opField_joinFields, argField_joinFields]

/-- The operand of a well-formed command fits in the argument field. -/
theorem Instr.arg_lt {n : Nat} {i : Instr} (h : i.wf n = true) : i.arg < 2 ^ n := by
  cases i <;> first | exact Nat.two_pow_pos n | exact of_decide_eq_true h

/-- Decoding an encoded command decodes its opcode and its operand. -/
theorem decode_encode {n : Nat} {i : Instr} (h : i.wf n = true) :
    decode n (encode n i) = decodeFields i.opcode i.arg := by
  rw [encode, decode_joinFields, Nat.mod_eq_of_lt (Instr.arg_lt h)]

end Sys2Proof
end

