-- ==== Sys2Proof/Laws/State.lean ====
section
/-!
SUPPORT. One lemma per field per update: what each named operation leaves in each field of the state.
-/

namespace Sys2Proof.Machine

variable (s : State)

/-! #### setWaveformMode -/

@[simp] theorem setWaveformMode_mode (m : Mode) : (setWaveformMode m s).mode = m := rfl
@[simp] theorem setWaveformMode_cs (m : Mode) : (setWaveformMode m s).cs = s.cs := rfl
@[simp] theorem setWaveformMode_compareReg (m : Mode) : (setWaveformMode m s).compareReg = s.compareReg := rfl
@[simp] theorem setWaveformMode_cnt (m : Mode) : (setWaveformMode m s).cnt = s.cnt := rfl
@[simp] theorem setWaveformMode_savedCs (m : Mode) : (setWaveformMode m s).savedCs = s.savedCs := rfl
@[simp] theorem setWaveformMode_ie (m : Mode) : (setWaveformMode m s).ie = s.ie := rfl
@[simp] theorem setWaveformMode_handler (m : Mode) : (setWaveformMode m s).handler = s.handler := rfl
@[simp] theorem setWaveformMode_pend (m : Mode) : (setWaveformMode m s).pend = s.pend := rfl
@[simp] theorem setWaveformMode_faultBeforeInit (m : Mode) : (setWaveformMode m s).faultBeforeInit = s.faultBeforeInit := rfl
@[simp] theorem setWaveformMode_faultReservedOp (m : Mode) : (setWaveformMode m s).faultReservedOp = s.faultReservedOp := rfl
@[simp] theorem setWaveformMode_dispatches (m : Mode) : (setWaveformMode m s).dispatches = s.dispatches := rfl
@[simp] theorem setWaveformMode_responses (m : Mode) : (setWaveformMode m s).responses = s.responses := rfl
@[simp] theorem setWaveformMode_schedule (m : Mode) : (setWaveformMode m s).schedule = s.schedule := rfl
@[simp] theorem setWaveformMode_params (m : Mode) : (setWaveformMode m s).params = s.params := rfl

/-! #### setClockSelect -/

@[simp] theorem setClockSelect_mode (c : Selector) : (setClockSelect c s).mode = s.mode := rfl
@[simp] theorem setClockSelect_cs (c : Selector) : (setClockSelect c s).cs = c := rfl
@[simp] theorem setClockSelect_compareReg (c : Selector) : (setClockSelect c s).compareReg = s.compareReg := rfl
@[simp] theorem setClockSelect_cnt (c : Selector) : (setClockSelect c s).cnt = s.cnt := rfl
@[simp] theorem setClockSelect_savedCs (c : Selector) : (setClockSelect c s).savedCs = s.savedCs := rfl
@[simp] theorem setClockSelect_ie (c : Selector) : (setClockSelect c s).ie = s.ie := rfl
@[simp] theorem setClockSelect_handler (c : Selector) : (setClockSelect c s).handler = s.handler := rfl
@[simp] theorem setClockSelect_pend (c : Selector) : (setClockSelect c s).pend = s.pend := rfl
@[simp] theorem setClockSelect_faultBeforeInit (c : Selector) : (setClockSelect c s).faultBeforeInit = s.faultBeforeInit := rfl
@[simp] theorem setClockSelect_faultReservedOp (c : Selector) : (setClockSelect c s).faultReservedOp = s.faultReservedOp := rfl
@[simp] theorem setClockSelect_dispatches (c : Selector) : (setClockSelect c s).dispatches = s.dispatches := rfl
@[simp] theorem setClockSelect_responses (c : Selector) : (setClockSelect c s).responses = s.responses := rfl
@[simp] theorem setClockSelect_schedule (c : Selector) : (setClockSelect c s).schedule = s.schedule := rfl
@[simp] theorem setClockSelect_params (c : Selector) : (setClockSelect c s).params = s.params := rfl

/-! #### setCompareValue -/

@[simp] theorem setCompareValue_mode (v : Nat) : (setCompareValue v s).mode = s.mode := rfl
@[simp] theorem setCompareValue_cs (v : Nat) : (setCompareValue v s).cs = s.cs := rfl
@[simp] theorem setCompareValue_compareReg (v : Nat) : (setCompareValue v s).compareReg = v % 2 ^ s.params.width := rfl
@[simp] theorem setCompareValue_cnt (v : Nat) : (setCompareValue v s).cnt = s.cnt := rfl
@[simp] theorem setCompareValue_savedCs (v : Nat) : (setCompareValue v s).savedCs = s.savedCs := rfl
@[simp] theorem setCompareValue_ie (v : Nat) : (setCompareValue v s).ie = s.ie := rfl
@[simp] theorem setCompareValue_handler (v : Nat) : (setCompareValue v s).handler = s.handler := rfl
@[simp] theorem setCompareValue_pend (v : Nat) : (setCompareValue v s).pend = s.pend := rfl
@[simp] theorem setCompareValue_faultBeforeInit (v : Nat) : (setCompareValue v s).faultBeforeInit = s.faultBeforeInit := rfl
@[simp] theorem setCompareValue_faultReservedOp (v : Nat) : (setCompareValue v s).faultReservedOp = s.faultReservedOp := rfl
@[simp] theorem setCompareValue_dispatches (v : Nat) : (setCompareValue v s).dispatches = s.dispatches := rfl
@[simp] theorem setCompareValue_responses (v : Nat) : (setCompareValue v s).responses = s.responses := rfl
@[simp] theorem setCompareValue_schedule (v : Nat) : (setCompareValue v s).schedule = s.schedule := rfl
@[simp] theorem setCompareValue_params (v : Nat) : (setCompareValue v s).params = s.params := rfl

/-! #### setCounter -/

@[simp] theorem setCounter_mode (v : Nat) : (setCounter v s).mode = s.mode := rfl
@[simp] theorem setCounter_cs (v : Nat) : (setCounter v s).cs = s.cs := rfl
@[simp] theorem setCounter_compareReg (v : Nat) : (setCounter v s).compareReg = s.compareReg := rfl
@[simp] theorem setCounter_cnt (v : Nat) : (setCounter v s).cnt = v % 2 ^ s.params.width := rfl
@[simp] theorem setCounter_savedCs (v : Nat) : (setCounter v s).savedCs = s.savedCs := rfl
@[simp] theorem setCounter_ie (v : Nat) : (setCounter v s).ie = s.ie := rfl
@[simp] theorem setCounter_handler (v : Nat) : (setCounter v s).handler = s.handler := rfl
@[simp] theorem setCounter_pend (v : Nat) : (setCounter v s).pend = s.pend := rfl
@[simp] theorem setCounter_faultBeforeInit (v : Nat) : (setCounter v s).faultBeforeInit = s.faultBeforeInit := rfl
@[simp] theorem setCounter_faultReservedOp (v : Nat) : (setCounter v s).faultReservedOp = s.faultReservedOp := rfl
@[simp] theorem setCounter_dispatches (v : Nat) : (setCounter v s).dispatches = s.dispatches := rfl
@[simp] theorem setCounter_responses (v : Nat) : (setCounter v s).responses = s.responses := rfl
@[simp] theorem setCounter_schedule (v : Nat) : (setCounter v s).schedule = s.schedule := rfl
@[simp] theorem setCounter_params (v : Nat) : (setCounter v s).params = s.params := rfl

/-! #### setSavedSelect -/

@[simp] theorem setSavedSelect_mode (c : Selector) : (setSavedSelect c s).mode = s.mode := rfl
@[simp] theorem setSavedSelect_cs (c : Selector) : (setSavedSelect c s).cs = s.cs := rfl
@[simp] theorem setSavedSelect_compareReg (c : Selector) : (setSavedSelect c s).compareReg = s.compareReg := rfl
@[simp] theorem setSavedSelect_cnt (c : Selector) : (setSavedSelect c s).cnt = s.cnt := rfl
@[simp] theorem setSavedSelect_savedCs (c : Selector) : (setSavedSelect c s).savedCs = c := rfl
@[simp] theorem setSavedSelect_ie (c : Selector) : (setSavedSelect c s).ie = s.ie := rfl
@[simp] theorem setSavedSelect_handler (c : Selector) : (setSavedSelect c s).handler = s.handler := rfl
@[simp] theorem setSavedSelect_pend (c : Selector) : (setSavedSelect c s).pend = s.pend := rfl
@[simp] theorem setSavedSelect_faultBeforeInit (c : Selector) : (setSavedSelect c s).faultBeforeInit = s.faultBeforeInit := rfl
@[simp] theorem setSavedSelect_faultReservedOp (c : Selector) : (setSavedSelect c s).faultReservedOp = s.faultReservedOp := rfl
@[simp] theorem setSavedSelect_dispatches (c : Selector) : (setSavedSelect c s).dispatches = s.dispatches := rfl
@[simp] theorem setSavedSelect_responses (c : Selector) : (setSavedSelect c s).responses = s.responses := rfl
@[simp] theorem setSavedSelect_schedule (c : Selector) : (setSavedSelect c s).schedule = s.schedule := rfl
@[simp] theorem setSavedSelect_params (c : Selector) : (setSavedSelect c s).params = s.params := rfl

/-! #### setEnable -/

@[simp] theorem setEnable_mode (b : Bool) : (setEnable b s).mode = s.mode := rfl
@[simp] theorem setEnable_cs (b : Bool) : (setEnable b s).cs = s.cs := rfl
@[simp] theorem setEnable_compareReg (b : Bool) : (setEnable b s).compareReg = s.compareReg := rfl
@[simp] theorem setEnable_cnt (b : Bool) : (setEnable b s).cnt = s.cnt := rfl
@[simp] theorem setEnable_savedCs (b : Bool) : (setEnable b s).savedCs = s.savedCs := rfl
@[simp] theorem setEnable_ie (b : Bool) : (setEnable b s).ie = b := rfl
@[simp] theorem setEnable_handler (b : Bool) : (setEnable b s).handler = s.handler := rfl
@[simp] theorem setEnable_pend (b : Bool) : (setEnable b s).pend = s.pend := rfl
@[simp] theorem setEnable_faultBeforeInit (b : Bool) : (setEnable b s).faultBeforeInit = s.faultBeforeInit := rfl
@[simp] theorem setEnable_faultReservedOp (b : Bool) : (setEnable b s).faultReservedOp = s.faultReservedOp := rfl
@[simp] theorem setEnable_dispatches (b : Bool) : (setEnable b s).dispatches = s.dispatches := rfl
@[simp] theorem setEnable_responses (b : Bool) : (setEnable b s).responses = s.responses := rfl
@[simp] theorem setEnable_schedule (b : Bool) : (setEnable b s).schedule = s.schedule := rfl
@[simp] theorem setEnable_params (b : Bool) : (setEnable b s).params = s.params := rfl

/-! #### setHandler -/

@[simp] theorem setHandler_mode (h : Token) : (setHandler h s).mode = s.mode := rfl
@[simp] theorem setHandler_cs (h : Token) : (setHandler h s).cs = s.cs := rfl
@[simp] theorem setHandler_compareReg (h : Token) : (setHandler h s).compareReg = s.compareReg := rfl
@[simp] theorem setHandler_cnt (h : Token) : (setHandler h s).cnt = s.cnt := rfl
@[simp] theorem setHandler_savedCs (h : Token) : (setHandler h s).savedCs = s.savedCs := rfl
@[simp] theorem setHandler_ie (h : Token) : (setHandler h s).ie = s.ie := rfl
@[simp] theorem setHandler_handler (h : Token) : (setHandler h s).handler = h := rfl
@[simp] theorem setHandler_pend (h : Token) : (setHandler h s).pend = s.pend := rfl
@[simp] theorem setHandler_faultBeforeInit (h : Token) : (setHandler h s).faultBeforeInit = s.faultBeforeInit := rfl
@[simp] theorem setHandler_faultReservedOp (h : Token) : (setHandler h s).faultReservedOp = s.faultReservedOp := rfl
@[simp] theorem setHandler_dispatches (h : Token) : (setHandler h s).dispatches = s.dispatches := rfl
@[simp] theorem setHandler_responses (h : Token) : (setHandler h s).responses = s.responses := rfl
@[simp] theorem setHandler_schedule (h : Token) : (setHandler h s).schedule = s.schedule := rfl
@[simp] theorem setHandler_params (h : Token) : (setHandler h s).params = s.params := rfl

/-! #### setPend -/

@[simp] theorem setPend_mode (b : Bool) : (setPend b s).mode = s.mode := rfl
@[simp] theorem setPend_cs (b : Bool) : (setPend b s).cs = s.cs := rfl
@[simp] theorem setPend_compareReg (b : Bool) : (setPend b s).compareReg = s.compareReg := rfl
@[simp] theorem setPend_cnt (b : Bool) : (setPend b s).cnt = s.cnt := rfl
@[simp] theorem setPend_savedCs (b : Bool) : (setPend b s).savedCs = s.savedCs := rfl
@[simp] theorem setPend_ie (b : Bool) : (setPend b s).ie = s.ie := rfl
@[simp] theorem setPend_handler (b : Bool) : (setPend b s).handler = s.handler := rfl
@[simp] theorem setPend_pend (b : Bool) : (setPend b s).pend = b := rfl
@[simp] theorem setPend_faultBeforeInit (b : Bool) : (setPend b s).faultBeforeInit = s.faultBeforeInit := rfl
@[simp] theorem setPend_faultReservedOp (b : Bool) : (setPend b s).faultReservedOp = s.faultReservedOp := rfl
@[simp] theorem setPend_dispatches (b : Bool) : (setPend b s).dispatches = s.dispatches := rfl
@[simp] theorem setPend_responses (b : Bool) : (setPend b s).responses = s.responses := rfl
@[simp] theorem setPend_schedule (b : Bool) : (setPend b s).schedule = s.schedule := rfl
@[simp] theorem setPend_params (b : Bool) : (setPend b s).params = s.params := rfl

/-! #### respond -/

@[simp] theorem respond_mode (v : Response) : (respond v s).mode = s.mode := rfl
@[simp] theorem respond_cs (v : Response) : (respond v s).cs = s.cs := rfl
@[simp] theorem respond_compareReg (v : Response) : (respond v s).compareReg = s.compareReg := rfl
@[simp] theorem respond_cnt (v : Response) : (respond v s).cnt = s.cnt := rfl
@[simp] theorem respond_savedCs (v : Response) : (respond v s).savedCs = s.savedCs := rfl
@[simp] theorem respond_ie (v : Response) : (respond v s).ie = s.ie := rfl
@[simp] theorem respond_handler (v : Response) : (respond v s).handler = s.handler := rfl
@[simp] theorem respond_pend (v : Response) : (respond v s).pend = s.pend := rfl
@[simp] theorem respond_faultBeforeInit (v : Response) : (respond v s).faultBeforeInit = s.faultBeforeInit := rfl
@[simp] theorem respond_faultReservedOp (v : Response) : (respond v s).faultReservedOp = s.faultReservedOp := rfl
@[simp] theorem respond_dispatches (v : Response) : (respond v s).dispatches = s.dispatches := rfl
@[simp] theorem respond_responses (v : Response) : (respond v s).responses = s.responses ++ [v] := rfl
@[simp] theorem respond_schedule (v : Response) : (respond v s).schedule = s.schedule := rfl
@[simp] theorem respond_params (v : Response) : (respond v s).params = s.params := rfl

/-! #### emitDispatch -/

@[simp] theorem emitDispatch_mode (h : Token) : (emitDispatch h s).mode = s.mode := rfl
@[simp] theorem emitDispatch_cs (h : Token) : (emitDispatch h s).cs = s.cs := rfl
@[simp] theorem emitDispatch_compareReg (h : Token) : (emitDispatch h s).compareReg = s.compareReg := rfl
@[simp] theorem emitDispatch_cnt (h : Token) : (emitDispatch h s).cnt = s.cnt := rfl
@[simp] theorem emitDispatch_savedCs (h : Token) : (emitDispatch h s).savedCs = s.savedCs := rfl
@[simp] theorem emitDispatch_ie (h : Token) : (emitDispatch h s).ie = s.ie := rfl
@[simp] theorem emitDispatch_handler (h : Token) : (emitDispatch h s).handler = s.handler := rfl
@[simp] theorem emitDispatch_pend (h : Token) : (emitDispatch h s).pend = s.pend := rfl
@[simp] theorem emitDispatch_faultBeforeInit (h : Token) : (emitDispatch h s).faultBeforeInit = s.faultBeforeInit := rfl
@[simp] theorem emitDispatch_faultReservedOp (h : Token) : (emitDispatch h s).faultReservedOp = s.faultReservedOp := rfl
@[simp] theorem emitDispatch_dispatches (h : Token) : (emitDispatch h s).dispatches = s.dispatches ++ [h] := rfl
@[simp] theorem emitDispatch_responses (h : Token) : (emitDispatch h s).responses = s.responses := rfl
@[simp] theorem emitDispatch_schedule (h : Token) : (emitDispatch h s).schedule = s.schedule := rfl
@[simp] theorem emitDispatch_params (h : Token) : (emitDispatch h s).params = s.params := rfl

/-! #### issueCommand -/

@[simp] theorem issueCommand_mode (w : Nat) : (issueCommand w s).mode = s.mode := rfl
@[simp] theorem issueCommand_cs (w : Nat) : (issueCommand w s).cs = s.cs := rfl
@[simp] theorem issueCommand_compareReg (w : Nat) : (issueCommand w s).compareReg = s.compareReg := rfl
@[simp] theorem issueCommand_cnt (w : Nat) : (issueCommand w s).cnt = s.cnt := rfl
@[simp] theorem issueCommand_savedCs (w : Nat) : (issueCommand w s).savedCs = s.savedCs := rfl
@[simp] theorem issueCommand_ie (w : Nat) : (issueCommand w s).ie = s.ie := rfl
@[simp] theorem issueCommand_handler (w : Nat) : (issueCommand w s).handler = s.handler := rfl
@[simp] theorem issueCommand_pend (w : Nat) : (issueCommand w s).pend = s.pend := rfl
@[simp] theorem issueCommand_faultBeforeInit (w : Nat) : (issueCommand w s).faultBeforeInit = s.faultBeforeInit := rfl
@[simp] theorem issueCommand_faultReservedOp (w : Nat) : (issueCommand w s).faultReservedOp = s.faultReservedOp := rfl
@[simp] theorem issueCommand_dispatches (w : Nat) : (issueCommand w s).dispatches = s.dispatches := rfl
@[simp] theorem issueCommand_responses (w : Nat) : (issueCommand w s).responses = s.responses := rfl
@[simp] theorem issueCommand_schedule (w : Nat) : (issueCommand w s).schedule = .command w :: s.schedule := rfl
@[simp] theorem issueCommand_params (w : Nat) : (issueCommand w s).params = s.params := rfl

/-! #### raiseFault -/

@[simp] theorem raiseFault_mode (k : FaultKind) : (raiseFault k s).mode = s.mode := by cases k <;> rfl
@[simp] theorem raiseFault_cs (k : FaultKind) : (raiseFault k s).cs = s.cs := by cases k <;> rfl
@[simp] theorem raiseFault_compareReg (k : FaultKind) : (raiseFault k s).compareReg = s.compareReg := by cases k <;> rfl
@[simp] theorem raiseFault_cnt (k : FaultKind) : (raiseFault k s).cnt = s.cnt := by cases k <;> rfl
@[simp] theorem raiseFault_savedCs (k : FaultKind) : (raiseFault k s).savedCs = s.savedCs := by cases k <;> rfl
@[simp] theorem raiseFault_ie (k : FaultKind) : (raiseFault k s).ie = s.ie := by cases k <;> rfl
@[simp] theorem raiseFault_handler (k : FaultKind) : (raiseFault k s).handler = s.handler := by cases k <;> rfl
@[simp] theorem raiseFault_pend (k : FaultKind) : (raiseFault k s).pend = s.pend := by cases k <;> rfl
@[simp] theorem raiseFault_faultBeforeInit (k : FaultKind) : (raiseFault k s).faultBeforeInit = (decide (k = .beforeInit) || s.faultBeforeInit) := by cases k <;> rfl
@[simp] theorem raiseFault_faultReservedOp (k : FaultKind) : (raiseFault k s).faultReservedOp = (decide (k = .reservedOpcode) || s.faultReservedOp) := by cases k <;> rfl
@[simp] theorem raiseFault_dispatches (k : FaultKind) : (raiseFault k s).dispatches = s.dispatches := by cases k <;> rfl
@[simp] theorem raiseFault_responses (k : FaultKind) : (raiseFault k s).responses = s.responses := by cases k <;> rfl
@[simp] theorem raiseFault_schedule (k : FaultKind) : (raiseFault k s).schedule = s.schedule := by cases k <;> rfl
@[simp] theorem raiseFault_params (k : FaultKind) : (raiseFault k s).params = s.params := by cases k <;> rfl

end Sys2Proof.Machine
end

