-- ==== Sys2Proof/Laws/Ops.lean ====
section
/-!
SUPPORT. One lemma per shared operation: everything it can do, so that no later proof unfolds it.
-/

namespace Sys2Proof.Machine

variable (s : State)

/-! #### The derived controller state (R31) -/

theorem controllerState_eq_uninitialized_iff : controllerState s = .uninitialized ↔ s.mode = .normal := by
  cases hm : s.mode with
  | normal => simp [controllerState, hm]
  | ctc => by_cases hc : s.cs = disabled <;> simp [controllerState, hm, hc]

theorem controllerState_eq_stopped_iff :
    controllerState s = .stopped ↔ s.mode = .ctc ∧ s.cs = disabled := by
  cases hm : s.mode with
  | normal => simp [controllerState, hm]
  | ctc => by_cases hc : s.cs = disabled <;> simp [controllerState, hm, hc]

theorem controllerState_eq_running_iff :
    controllerState s = .running ↔ s.mode = .ctc ∧ s.cs ≠ disabled := by
  cases hm : s.mode with
  | normal => simp [controllerState, hm]
  | ctc => by_cases hc : s.cs = disabled <;> simp [controllerState, hm, hc]

theorem controllerState_ne_uninitialized_iff : controllerState s ≠ .uninitialized ↔ s.mode = .ctc := by
  rw [Ne, controllerState_eq_uninitialized_iff]
  cases s.mode <;> simp

/-- The controller state depends on `MODE` and `CS` alone. -/
theorem controllerState_congr {s t : State} (hm : s.mode = t.mode) (hc : s.cs = t.cs) :
    controllerState s = controllerState t := by
  rw [controllerState, controllerState, hm, hc]

/-! #### Match and pending delivery (R86 to R89) -/

/-- A match writes `DISPATCHES` and `PEND` only. -/
theorem matchEvent_eq :
    matchEvent s = { s with
      dispatches := if s.ie then s.dispatches ++ [s.handler] else s.dispatches
      pend := s.pend || (!s.ie && s.params.maskedMatchPends) } := by
  obtain ⟨_, _, _, _, _, ie, _, _, _, _, _, _, _, p⟩ := s
  cases ie <;> cases hp : p.maskedMatchPends <;> simp [matchEvent, emitDispatch, setPend, hp]

/-- Pending delivery writes `DISPATCHES` and `PEND` only, and leaves no match latched. -/
theorem deliverPending_eq (h : Token) :
    deliverPending h s = { s with
      pend := false
      dispatches := if s.pend then s.dispatches ++ [h] else s.dispatches } := by
  obtain ⟨_, _, _, _, _, _, _, pend, _, _, _, _, _, _⟩ := s
  cases pend <;> simp [deliverPending, emitDispatch, setPend]

/-! #### The stored period (R72) -/

/-- Storing a resolved pair writes `CS`, `SAVED_CS` and `COMPARE` only; both selectors get the resolved one. -/
theorem storePeriod_eq (r : Selector × Nat) :
    storePeriod r s = { s with
      cs := r.1, savedCs := r.1
      compareReg := if r.1 = disabled then 0 else r.2 % 2 ^ s.params.width } := by
  unfold storePeriod setCompareValue setSavedSelect setClockSelect
  by_cases h : r.1 = disabled <;> simp [h]

/-! #### TICK (R84) -/

/-- A TICK writes `CNT`, `DISPATCHES` and `PEND` only. -/
theorem tick_eq :
    tick s = { s with
      cnt := if s.cnt = s.compareReg then 0 else (s.cnt + 1) % 2 ^ s.params.width
      dispatches :=
        if s.cnt = s.compareReg then (if s.ie then s.dispatches ++ [s.handler] else s.dispatches)
        else s.dispatches
      pend := s.pend || (decide (s.cnt = s.compareReg) && (!s.ie && s.params.maskedMatchPends)) } := by
  unfold tick readCounter
  by_cases h : s.cnt = s.compareReg
  · rw [if_pos h, matchEvent_eq]
    simp only [setCounter, h, Nat.zero_mod, if_true, decide_true, Bool.true_and]
    rfl
  · rw [if_neg h]
    simp [setCounter, h]

theorem tickEnabled_iff : tickEnabled s = true ↔ controllerState s = .running := by
  simp [tickEnabled]

/-! #### The schedule (R41) -/

@[simp] theorem fetch_of_nil (h : s.schedule = []) : fetch s = none := by simp [fetch, h]

@[simp] theorem fetch_of_cons {e : Event} {rest : List Event} (h : s.schedule = e :: rest) :
    fetch s = some (e, { s with schedule := rest }) := by simp [fetch, h]

theorem fetch_issueCommand (w : Nat) : fetch (issueCommand w s) = some (.command w, s) := rfl

end Sys2Proof.Machine
end

