-- ==== Sys2Proof/Laws/Resolver.lean ====
section
/-!
SUPPORT. The arithmetic of the Period Resolver (40_period_resolver.md R62 to R64) and of the selector codes (30_encoding.md
R53).
-/

namespace Sys2Proof.Machine

theorem ceilDiv_le_iff {a b c : Nat} (hb : 1 ≤ b) : ceilDiv a b ≤ c ↔ a ≤ c * b := by
  rw [ceilDiv, Nat.div_le_iff_le_mul_add_pred hb, Nat.mul_comm]
  omega

theorem one_le_ceilDiv {a b : Nat} (ha : 1 ≤ a) (hb : 1 ≤ b) : 1 ≤ ceilDiv a b := by
  by_contra h
  have h0 : a ≤ 0 * b := (ceilDiv_le_iff hb).mp (by omega)
  omega

theorem counts_add_one {period d : Nat} (hp : 1 ≤ period) (hd : 1 ≤ d) :
    counts period d + 1 = ceilDiv period d := by
  have := one_le_ceilDiv hp hd
  rw [counts]
  omega

theorem maxCount_add_one (p : Params) : p.maxCount + 1 = 2 ^ p.width := by
  have := Nat.one_le_two_pow (n := p.width)
  rw [Params.maxCount]
  omega

/-- A count fits exactly when the period is at most `d * 2^W` (R64's derivation). -/
theorem counts_le_maxCount_iff {p : Params} {period d : Nat} (hp : 1 ≤ period) (hd : 1 ≤ d) :
    counts period d ≤ p.maxCount ↔ period ≤ d * 2 ^ p.width := by
  rw [← Nat.add_le_add_iff_right (n := 1), counts_add_one hp hd, maxCount_add_one, ceilDiv_le_iff hd,
    Nat.mul_comm]

/-! #### Legal parameters -/

theorem Params.width_pos {p : Params} (h : p.wf = true) : 1 ≤ p.width := by
  simp only [Params.wf, Bool.and_eq_true, decide_eq_true_eq] at h
  exact h.1.1.1.1.1

theorem Params.divs_ne_nil {p : Params} (h : p.wf = true) : p.divs ≠ [] := by
  simp only [Params.wf, Bool.and_eq_true, decide_eq_true_eq] at h
  exact h.1.1.1.1.2

theorem Params.ndiv_le {p : Params} (h : p.wf = true) : p.ndiv ≤ 6 := by
  simp only [Params.wf, Bool.and_eq_true, decide_eq_true_eq] at h
  exact h.1.1.1.2

theorem Params.one_le_of_mem {p : Params} (h : p.wf = true) {d : Nat} (hd : d ∈ p.divs) : 1 ≤ d := by
  simp only [Params.wf, Bool.and_eq_true, decide_eq_true_eq, List.all_eq_true] at h
  exact h.1.1.2 d hd

theorem Params.divs_ascending {p : Params} (h : p.wf = true) : p.divs.Pairwise (· < ·) := by
  simp only [Params.wf, Bool.and_eq_true, decide_eq_true_eq] at h
  exact h.1.2

/-- The argument field expresses `DMAX * 2^W`, and is at least 32 bits wide (R12, 90_conflicts.md C7). -/
theorem Params.argWidth_wide {p : Params} (h : p.wf = true) :
    p.dmax * 2 ^ p.width < 2 ^ p.argWidth ∧ 32 ≤ p.argWidth := by
  simp only [Params.wf, Bool.and_eq_true] at h
  have hw := h.2
  rw [Params.argWidthOk] at hw
  split at hw
  · rw [of_decide_eq_true hw]
    exact ⟨‹_›, le_rfl⟩
  · have hlt := of_decide_eq_true hw
    exact ⟨hlt, (Nat.pow_lt_pow_iff_right (a := 2) (by omega)).mp (by omega) |>.le⟩

theorem Params.argWidth_eq {p : Params} (h : p.wf = true) (hs : p.dmax * 2 ^ p.width < 2 ^ 32) :
    p.argWidth = 32 := by
  simp only [Params.wf, Bool.and_eq_true] at h
  have hw := h.2
  rw [Params.argWidthOk, if_pos hs] at hw
  exact of_decide_eq_true hw

theorem Params.dmax_mem {p : Params} (h : p.wf = true) : p.dmax ∈ p.divs := by
  rw [Params.dmax, List.getLastD_eq_getLast?, List.getLast?_eq_some_getLast (Params.divs_ne_nil h)]
  exact List.getLast_mem _

/-- `DMAX` is the largest divisor. -/
theorem Params.le_dmax {p : Params} (h : p.wf = true) {d : Nat} (hd : d ∈ p.divs) : d ≤ p.dmax := by
  obtain ⟨i, hi, rfl⟩ := List.getElem_of_mem hd
  rw [Params.dmax, List.getLastD_eq_getLast?, List.getLast?_eq_some_getLast (Params.divs_ne_nil h),
    Option.getD_some, List.getLast_eq_getElem]
  rcases Nat.lt_or_ge i (p.divs.length - 1) with hlt | hge
  · exact (List.pairwise_iff_getElem.mp (Params.divs_ascending h) _ _ hi (by omega) hlt).le
  · exact le_of_eq (by congr 1; omega)

/-! #### Selectors -/

theorem idxOf_of_getElem? {p : Params} (h : p.wf = true) {i d : Nat} (hd : p.divs[i]? = some d) :
    p.divs.idxOf d = i := by
  obtain ⟨hi, rfl⟩ := List.getElem?_eq_some_iff.mp hd
  exact List.Nodup.idxOf_getElem ((Params.divs_ascending h).imp (fun hab => Nat.ne_of_lt hab)) i hi

theorem sel_toNat {p : Params} (h : p.wf = true) {d : Nat} (hd : d ∈ p.divs) :
    (sel p d).toNat = p.divs.idxOf d + 1 := by
  have hlt : p.divs.idxOf d < p.divs.length := List.idxOf_lt_length_of_mem hd
  have h6 : p.divs.length ≤ 6 := Params.ndiv_le h
  rw [sel, BitVec.toNat_ofNat, Nat.mod_eq_of_lt (by omega)]

theorem sel_ne_disabled {p : Params} (h : p.wf = true) {d : Nat} (hd : d ∈ p.divs) : sel p d ≠ disabled := by
  intro he
  have := sel_toNat h hd
  rw [he] at this
  simp at this

theorem sel_toNat_le {p : Params} (h : p.wf = true) {d : Nat} (hd : d ∈ p.divs) :
    (sel p d).toNat ≤ p.ndiv := by
  have hlt : p.divs.idxOf d < p.divs.length := List.idxOf_lt_length_of_mem hd
  rw [sel_toNat h hd, Params.ndiv]
  omega

theorem divisorOf_sel {p : Params} (h : p.wf = true) {d : Nat} (hd : d ∈ p.divs) :
    divisorOf p (sel p d) = some d := by
  rw [divisorOf, if_neg (sel_ne_disabled h hd), sel_toNat h hd, Nat.add_sub_cancel,
    List.getElem?_eq_getElem (List.idxOf_lt_length_of_mem hd), List.getElem_idxOf]

/-! #### Resolve -/

/-- Everything `Resolve` can answer: the stop encoding, a divisor that fits, or saturation. -/
theorem resolve_cases (p : Params) (period : Nat) :
    (period = 0 ∧ resolve p period = (disabled, 0)) ∨
    (1 ≤ period ∧ ∃ d ∈ p.divs, p.divs.find? (fits p period) = some d ∧
      counts period d ≤ p.maxCount ∧ resolve p period = (sel p d, counts period d)) ∨
    (1 ≤ period ∧ p.divs.find? (fits p period) = none ∧
      (∀ d ∈ p.divs, p.maxCount < counts period d) ∧
      resolve p period = (sel p p.dmax, p.maxCount)) := by
  unfold resolve
  by_cases h0 : period = 0
  · exact .inl ⟨h0, if_pos h0⟩
  have h1 : 1 ≤ period := Nat.pos_of_ne_zero h0
  rw [if_neg h0]
  cases hf : p.divs.find? (fits p period) with
  | some d =>
    exact .inr (.inl ⟨h1, d, List.mem_of_find?_eq_some hf, rfl,
      by simpa [fits] using List.find?_some hf, rfl⟩)
  | none =>
    exact .inr (.inr ⟨h1, rfl,
      fun d hd => by simpa [fits] using List.find?_eq_none.mp hf d hd, rfl⟩)

/-- A period that resolves to a connected clock does so with a divisor of the table, and only the zero period resolves to
`DISABLED`. -/
theorem resolve_selector {p : Params} (h : p.wf = true) {period : Nat} (hp : 1 ≤ period) :
    ∃ d ∈ p.divs, (resolve p period).1 = sel p d := by
  rcases resolve_cases p period with ⟨h0, -⟩ | ⟨-, d, hd, -, -, hr⟩ | ⟨-, -, -, hr⟩
  · omega
  · exact ⟨d, hd, by rw [hr]⟩
  · exact ⟨p.dmax, Params.dmax_mem h, by rw [hr]⟩

theorem resolve_compare_le (p : Params) (period : Nat) : (resolve p period).2 ≤ p.maxCount := by
  rcases resolve_cases p period with ⟨-, hr⟩ | ⟨-, d, -, -, hc, hr⟩ | ⟨-, -, -, hr⟩ <;> rw [hr]
  · exact Nat.zero_le _
  · exact hc

/-- The resolved compare value is a `W`-bit value: the compare register holds it whole. -/
theorem resolve_compare_mod (p : Params) (period : Nat) :
    (resolve p period).2 % 2 ^ p.width = (resolve p period).2 := by
  have h1 := resolve_compare_le p period
  have h2 := maxCount_add_one p
  exact Nat.mod_eq_of_lt (by omega)

end Sys2Proof.Machine
end

