-- ==== Sys2Proof/Laws/Exec.lean ====
section
/-!
SUPPORT. Everything a command can do: the inversion of exec, from which the frames and invariants follow, and that every
command answers a next state.
-/

namespace Sys2Proof.Machine

/-- Every way a command can end, with the whole next state. -/
theorem exec_cases {i : Instr} {s t : State} (h : exec i s = .next t) :
    (i = .init ∧
      t = { s with mode := .ctc, cs := disabled, cnt := 0, responses := s.responses ++ [.ack] }) ∨
    (needsInit i = true ∧ s.mode = .normal ∧
      t = { s with faultBeforeInit := true, responses := s.responses ++ [.ack] }) ∨
    (∃ period r, i = .setperiod period ∧ s.mode = .ctc ∧ r = resolve s.params period ∧
      t = { s with cs := r.1, savedCs := r.1, compareReg := if r.1 = disabled then 0 else r.2,
                   responses := s.responses ++ [.ack] }) ∨
    (i = .start ∧ s.mode = .ctc ∧
      t = { s with cs := if s.savedCs = disabled then s.cs else s.savedCs,
                   responses := s.responses ++ [.ack] }) ∨
    (i = .stop ∧ s.mode = .ctc ∧ t = { s with cs := disabled, responses := s.responses ++ [.ack] }) ∨
    (i = .reset ∧ t = { s with cnt := 0, responses := s.responses ++ [.ack] }) ∨
    (∃ handler, i = .attach handler ∧
      t = { s with handler := handler, ie := true, pend := false,
                   dispatches := if s.pend then s.dispatches ++ [handler] else s.dispatches,
                   responses := s.responses ++ [.ack] }) ∨
    (i = .detach ∧ t = { s with ie := false, responses := s.responses ++ [.ack] }) ∨
    (i = .getcb ∧ t = { s with responses := s.responses ++ [.token s.handler] }) ∨
    (∃ op, i = .reserved op ∧ t = { s with faultReservedOp := true }) := by
  cases i with
  | init => cases h; exact .inl ⟨rfl, by simp [respond, setCounter, setClockSelect, setWaveformMode]⟩
  | setperiod period =>
    rw [exec, execSetperiod] at h
    split at h
    · cases h
      exact .inr (.inl ⟨rfl, (controllerState_eq_uninitialized_iff s).mp ‹_›, rfl⟩)
    · cases h
      refine .inr (.inr (.inl ⟨period, _, rfl, (controllerState_ne_uninitialized_iff s).mp ‹_›, rfl, ?_⟩))
      rw [storePeriod_eq, resolve_compare_mod]
      rfl
  | start =>
    rw [exec, execStart] at h
    split at h
    · cases h
      exact .inr (.inl ⟨rfl, (controllerState_eq_uninitialized_iff s).mp ‹_›, rfl⟩)
    · have hm := (controllerState_ne_uninitialized_iff s).mp ‹_›
      refine .inr (.inr (.inr (.inl ⟨rfl, hm, ?_⟩)))
      split at h <;> cases h <;> simp [respond, setClockSelect, *]
  | stop =>
    rw [exec, execStop] at h
    split at h
    · cases h
      exact .inr (.inl ⟨rfl, (controllerState_eq_uninitialized_iff s).mp ‹_›, rfl⟩)
    · cases h
      exact .inr (.inr (.inr (.inr (.inl
        ⟨rfl, (controllerState_ne_uninitialized_iff s).mp ‹_›, rfl⟩))))
  | reset => cases h; simp [respond, setCounter]
  | attach handler =>
    cases h
    rw [deliverPending_eq]
    exact .inr (.inr (.inr (.inr (.inr (.inr (.inl ⟨handler, rfl, rfl⟩))))))
  | detach => cases h; simp [respond, setEnable, needsInit]
  | getcb => cases h; simp [respond, needsInit]
  | reserved op => cases h; simp [raiseFault, needsInit]

/-- Every command answers a next state, and neither the schedule nor the parameters change. -/
theorem exec_answers_next (i : Instr) (s : State) :
    ∃ t, exec i s = .next t ∧ t.schedule = s.schedule ∧ t.params = s.params := by
  cases i with
  | setperiod period =>
    rw [exec, execSetperiod]
    split
    · exact ⟨_, rfl, rfl, rfl⟩
    · exact ⟨_, rfl, by simp [storePeriod_eq], by simp [storePeriod_eq]⟩
  | start =>
    rw [exec, execStart]
    split
    · exact ⟨_, rfl, rfl, rfl⟩
    · split <;> exact ⟨_, rfl, rfl, rfl⟩
  | stop =>
    rw [exec, execStop]
    split <;> exact ⟨_, rfl, rfl, rfl⟩
  | attach handler => exact ⟨_, rfl, by simp [deliverPending_eq], by simp [deliverPending_eq]⟩
  | init => exact ⟨_, rfl, rfl, rfl⟩
  | reset => exact ⟨_, rfl, rfl, rfl⟩
  | detach => exact ⟨_, rfl, rfl, rfl⟩
  | getcb => exact ⟨_, rfl, rfl, rfl⟩
  | reserved op => exact ⟨_, rfl, rfl, rfl⟩

end Sys2Proof.Machine
end

