-- ==== Sys2Proof/Laws/PerInstr.lean ====
section
/-!
SUPPORT. Statements about every command as it is encoded, one lemma per constructor: the two fields of the encoded word
are the opcode of 30_encoding.md R48 and the argument of R49, R51 and R52.
-/

namespace Sys2Proof.Laws.EncodedFields

def Statement (i : Instr) : Prop :=
  ∀ n : Nat, i.wf n = true → opField n (encode n i) = i.opcode ∧ argField n (encode n i) = i.arg

/-- Both fields of any encoded command, from the two laws of joined fields. -/
theorem of_joined (i : Instr) : Statement i := fun n h =>
  ⟨opField_joinFields n _ _, (argField_joinFields n _ _).trans (Nat.mod_eq_of_lt (Instr.arg_lt h))⟩

theorem init : Statement .init := of_joined _
theorem setperiod (period : Nat) : Statement (.setperiod period) := of_joined _
theorem start : Statement .start := of_joined _
theorem stop : Statement .stop := of_joined _
theorem reset : Statement .reset := of_joined _
theorem attach (handler : Token) : Statement (.attach handler) := of_joined _
theorem detach : Statement .detach := of_joined _
theorem getcb : Statement .getcb := of_joined _
theorem reserved (op : Opcode) : Statement (.reserved op) := of_joined _

end Sys2Proof.Laws.EncodedFields
end

