-- ==== Sys2Proof/Laws/Step.lean ====
section
/-!
SUPPORT. Everything one step can do, and how runs compose: what the provers cite instead of unfolding step and run.
-/

namespace Sys2Proof.Machine

/-- The four kinds of step (R41, R83, R103), each with the state it acts on. -/
theorem step_cases {s t : State} (h : step s = .next t) :
    (s.schedule = [] ∧ t = s) ∨
    (∃ w rest, s.schedule = .command w :: rest ∧ exec (decode s.params.argWidth w) { s with schedule := rest } = .next t) ∨
    (∃ rest, s.schedule = .tick :: rest ∧ t = offerTick { s with schedule := rest }) ∨
    (∃ c n rest, s.schedule = .powerOn c n :: rest ∧
      t = { State.powerOn s.params c n with schedule := rest }) := by
  unfold step at h
  cases hs : s.schedule with
  | nil =>
    rw [fetch_of_nil s hs] at h
    cases h
    exact .inl ⟨rfl, rfl⟩
  | cons e rest =>
    rw [fetch_of_cons s hs] at h
    cases e with
    | command w => exact .inr (.inl ⟨w, rest, rfl, h⟩)
    | tick =>
      cases h
      exact .inr (.inr (.inl ⟨rest, rfl, rfl⟩))
    | powerOn c n =>
      cases h
      exact .inr (.inr (.inr ⟨c, n, rest, rfl, rfl⟩))

/-- An offered edge while running is a TICK. -/
theorem offerTick_running {s : State} (h : controllerState s = .running) : offerTick s = tick s := by
  rw [offerTick, if_pos ((tickEnabled_iff s).mpr h)]

/-- An offered edge while not running is none. -/
theorem offerTick_not_running {s : State} (h : controllerState s ≠ .running) : offerTick s = s := by
  rw [offerTick, if_neg (fun hc => h ((tickEnabled_iff s).mp hc))]

/-- The step of an offered edge. -/
theorem step_of_tick {s : State} {rest : List Event} (hs : s.schedule = .tick :: rest) :
    step s = .next (offerTick { s with schedule := rest }) := by
  rw [step, fetch_of_cons s hs]

/-- The step of a power-on reset. -/
theorem step_of_powerOn {s : State} {c n : Nat} {rest : List Event} (hs : s.schedule = .powerOn c n :: rest) :
    step s = .next (powerOnReset c n { s with schedule := rest }) := by
  rw [step, fetch_of_cons s hs]

theorem reaches_zero (s : State) : reaches 0 s s := rfl

/-- The first step of a run of any machine, where it answers a next state. -/
theorem coreRun_next {M : Host.Core} {k : Nat} {s t : M.State} (h : M.step s = .next t) :
    M.run (k + 1) s = M.run k t := by
  simp only [Host.Core.run, h]

/-- The first step of a run of any machine, where it is refused. -/
theorem coreRun_refused {M : Host.Core} {k : Nat} {s : M.State} {r : M.Refusal} (h : M.step s = .refused r) :
    M.run (k + 1) s = .refused r := by
  simp only [Host.Core.run, h]

/-- The first step of a run of the block. -/
theorem run_succ (k : Nat) {s t : State} (h : step s = .next t) :
    Host.Core.run core (k + 1) s = Host.Core.run core k t := coreRun_next h

/-- One step and then `k` more. -/
theorem reaches_succ {k : Nat} {s t u : State} (h : step s = .next t) (hr : reaches k t u) :
    reaches (k + 1) s u := (run_succ k h).trans hr

/-- `j` steps and then `k` more. -/
theorem reaches_add {j k : Nat} {s t u : State} (hj : reaches j s t) (hk : reaches k t u) :
    reaches (j + k) s u := by
  induction j generalizing s with
  | zero =>
    cases (show s = t from Host.Outcome.next.inj hj)
    simpa using hk
  | succ j ih =>
    cases hs : step s with
    | next s' =>
      have := reaches_succ hs (ih ((run_succ j hs).symm.trans hj))
      rwa [Nat.add_right_comm] at this
    | fault r => cases r
    | refused r =>
      exact absurd ((coreRun_refused (M := core) hs).symm.trans hj) (by simp)

/-- Runs by induction, once: what every step establishes again holds after any number of steps. -/
theorem reaches_of_step_keeps {P : State → Prop} (keeps : ∀ s, P s → ∃ t, step s = .next t ∧ P t) (k : Nat) {s : State}
    (hs : P s) : ∃ t, reaches k s t ∧ P t := by
  induction k generalizing s with
  | zero => exact ⟨s, reaches_zero s, hs⟩
  | succ k ih =>
    obtain ⟨t, hst, ht⟩ := keeps s hs
    obtain ⟨u, hu, hPu⟩ := ih ht
    exact ⟨u, reaches_succ hst hu, hPu⟩

end Sys2Proof.Machine
end

