-- ==== Sys2Proof/Tests/Slice0.lean ====
section
/-!
SUPPORT. Tests of one operation or one step each. Expected results come from 95_test_vectors.md (the vector is named at each)
or from the encodings of 30_encoding.md R47 and R48. After them, one witness for the hypotheses of each statement of
Certificates/Slice0/Obligations.lean that has some, at boundary values where a clause has a range.
-/

namespace Sys2Proof.Tests

open Sys2Proof.Machine

/-- The parameters of every vector, with `P_MASKED_MATCH_PENDS` given. -/
def vectorParams (pends : Bool) : Params := ⟨16, [1, 8, 64, 256, 1024], 32, pends⟩

/-- `Uninitialized`: right after power-on. -/
def fresh (pends : Bool := false) : State := State.powerOn (vectorParams pends) 0 0

/-- `Stopped`, with a remembered selector and some count. -/
def stopped (saved : Selector) (compare cnt : Nat) : State :=
  { fresh with mode := .ctc, savedCs := saved, compareReg := compare, cnt := cnt }

/-- `Running` from `sel`, with handler `0x11`. -/
def running (sel : Selector) (compare cnt : Nat) (ie : Bool) (pends : Bool := false) : State :=
  { fresh pends with
    mode := .ctc, cs := sel, savedCs := sel, compareReg := compare, cnt := cnt, ie := ie, handler := 0x11#32 }

/-- One field of the next state of a command. -/
def after {α : Type} (i : Instr) (s : State) (f : State → α) : Option α :=
  match exec i s with
  | .next t => some (f t)
  | .fault _ => none
  | .refused _ => none

/-- One field of the state after one step. -/
def afterStep {α : Type} (s : State) (f : State → α) : Option α :=
  match step s with
  | .next t => some (f t)
  | .fault _ => none
  | .refused _ => none

/-- The state with events scheduled. -/
def scheduling (events : List Event) (s : State) : State := { s with schedule := events }

/-! ### Well-formedness: an ill-formed term for each check -/

theorem test_reserved_below_eight_ill_formed : (Instr.reserved 0x7#4).wf 32 = false := by decide
theorem test_reserved_eight_well_formed : (Instr.reserved 0x8#4).wf 32 = true := by decide
theorem test_period_too_wide_ill_formed : (Instr.setperiod 4294967296).wf 32 = false := by decide
theorem test_period_fits_wider_argument : (Instr.setperiod 4294967296).wf 33 = true := by decide
theorem test_token_too_wide_ill_formed : (Instr.attach 0x100#32).wf 8 = false := by decide
theorem test_params_without_divisors_illegal : (Params.mk 16 [] 32 false).wf = false := by decide
theorem test_params_descending_illegal : (Params.mk 16 [8, 1] 32 false).wf = false := by decide
theorem test_params_seven_divisors_illegal : (Params.mk 16 [1, 2, 3, 4, 5, 6, 7] 32 false).wf = false := by decide
theorem test_params_zero_width_illegal : (Params.mk 0 [1] 32 false).wf = false := by decide
theorem test_params_zero_divisor_illegal : (Params.mk 16 [0, 1] 32 false).wf = false := by decide
theorem test_params_narrow_argument_illegal : (Params.mk 22 [1, 1024] 32 false).wf = false := by decide
theorem test_params_wide_argument_without_need_illegal : (Params.mk 16 [1] 33 false).wf = false := by decide
theorem test_params_wider_argument_legal : (Params.mk 22 [1, 1024] 33 false).wf = true := by decide
theorem test_vector_params_legal : (vectorParams true).wf = true := by decide

/-! ### Decoding: words written out bit by bit from R47 and R48; L2.2 -/

theorem test_decode_init : decode 32 0b0000_11011110101011011011111011101111 = .init := by decide
theorem test_decode_setperiod :
    decode 32 0b0001_00000000000011110100001001000000 = .setperiod 1000000 := by decide
theorem test_decode_setperiod_all_ones :
    decode 32 0b0001_11111111111111111111111111111111 = .setperiod 4294967295 := by decide
theorem test_decode_start : decode 32 0b0010_00000000000000000000000000000000 = .start := by decide
theorem test_decode_stop : decode 32 0b0011_00000000000000000000000000000000 = .stop := by decide
theorem test_decode_reset : decode 32 0b0100_00000000000000000000000000000000 = .reset := by decide
theorem test_decode_attach : decode 32 0b0101_00000000000000000001001000110100 = .attach 0x1234#32 := by decide
theorem test_decode_detach : decode 32 0b0110_00000000000000000000000000000000 = .detach := by decide
theorem test_decode_getcb : decode 32 0b0111_00000000000000000000000000000000 = .getcb := by decide
theorem test_decode_reserved_low : decode 32 0b1000_00000000000000000000000000000000 = .reserved 8#4 := by decide
theorem test_decode_reserved_high : decode 32 0b1111_11111111111111111111111111111111 = .reserved 15#4 := by decide
theorem test_table_word_attach : decodeTableWord 40 0x500001234 = some (.attach 0x1234#32) := by decide
theorem test_table_word_too_wide : decodeTableWord 40 0x1000000000 = none := by decide
theorem test_encode_attach : encode 32 (.attach 0x1234#32) = 0x500001234 := by decide
/-- `{0x1, ARG}` with 33 bits of `ARG`, the period 2^32 + 1 (R12, C7). -/
theorem test_decode_wider_setperiod : decode 33 0x300000001 = .setperiod 4294967297 := by decide

/-! ### Assembler: R58 -/

theorem test_assemble_setperiod_decimal :
    assemble 32 ['s', 'e', 't', 'P', 'E', 'R', 'I', 'O', 'D', ' ', '1', '0', '0', '0', '0', '0', '0'] =
      some 0x1000F4240 := by decide
theorem test_assemble_attach_hex :
    assemble 32 ['A', 'T', 'T', 'A', 'C', 'H', ' ', '0', 'x', 'B', 'e', 'E', 'F'] = some 0x50000BEEF := by decide
theorem test_assemble_getcb_comment :
    assemble 32 ['G', 'E', 'T', 'C', 'B', ' ', ' ', ';', ' ', 'x'] = some 0x700000000 := by decide
theorem test_assemble_too_wide :
    assemble 32 ['A', 'T', 'T', 'A', 'C', 'H', ' ', '4', '2', '9', '4', '9', '6', '7', '2', '9', '6'] = none := by
  decide

/-! ### The Period Resolver: L1.1, L2.1 -/

theorem test_resolve_boundaries :
    [0, 1, 65536, 65537, 524287, 524288, 524289, 4194304, 4194305].map (resolve (vectorParams false)) =
      [(0#3, 0), (1#3, 0), (1#3, 65535), (2#3, 8192), (2#3, 65535), (2#3, 65535), (3#3, 8192), (3#3, 65535),
       (4#3, 16384)] := by decide
theorem test_resolve_large :
    [1000000, 16777216, 16777217, 50000000, 67108864, 67108865, 2000000000, 4294967295].map
        (resolve (vectorParams false)) =
      [(3#3, 15624), (4#3, 65535), (5#3, 16384), (5#3, 48828), (5#3, 65535), (5#3, 65535), (5#3, 65535),
       (5#3, 65535)] := by decide
theorem test_realised_period : realisedPeriod (vectorParams false) 5#3 48828 = some 50000896 := by decide

/-! ### Timer Controller commands: L2.3 -/

/-- T2. -/
theorem test_init_running :
    after .init { running 2#3 12499 700 true with handler := 0x9#32 }
        (fun t => (controllerState t, t.cnt, t.savedCs, t.compareReg, t.ie, t.handler)) =
      some (.stopped, 0, 2#3, 12499, true, 0x9#32) := by decide
/-- T4. -/
theorem test_setperiod_stopped :
    after (.setperiod 1000000) (stopped 0#3 0 17)
        (fun t => (t.cs, t.savedCs, t.compareReg, t.cnt, controllerState t)) =
      some (3#3, 3#3, 15624, 17, .running) := by decide
/-- T6. -/
theorem test_setperiod_zero :
    after (.setperiod 0) (running 3#3 15624 9 false)
        (fun t => (t.cs, t.savedCs, t.compareReg, t.cnt, controllerState t)) =
      some (0#3, 0#3, 0, 9, .stopped) := by decide
/-- T10. -/
theorem test_start_resumes :
    after .start (stopped 4#3 1000 42) (fun t => (t.cs, t.compareReg, t.cnt, controllerState t)) =
      some (4#3, 1000, 42, .running) := by decide
/-- T13. -/
theorem test_start_before_init :
    after .start fresh (fun t => (t.faultBeforeInit, t.cs, t.mode, t.responses)) =
      some (true, 0#3, .normal, [.ack]) := by decide
/-- T14. -/
theorem test_stop_running :
    after .stop (running 3#3 15624 9 false) (fun t => (t.cs, t.savedCs, t.cnt, controllerState t)) =
      some (0#3, 3#3, 9, .stopped) := by decide
/-- T17. -/
theorem test_reset_running :
    after .reset (running 3#3 15624 1234 false) (fun t => (t.cnt, controllerState t)) = some (0, .running) := by
  decide
/-- T20. -/
theorem test_getcb_masked :
    after .getcb { fresh with handler := 0xCAFE#32 } State.responses = some [.token 0xCAFE#32] := by decide

/-! ### Interrupt Dispatch commands: L2.4 -/

/-- A1. -/
theorem test_attach_fresh :
    after (.attach 0x1234#32) fresh (fun t => (t.handler, t.ie, t.dispatches, t.faultBeforeInit)) =
      some (0x1234#32, true, [], false) := by decide
/-- A4. -/
theorem test_attach_delivers :
    after (.attach 0xBEEF#32) { fresh true with pend := true }
        (fun t => (t.handler, t.ie, t.pend, t.dispatches)) =
      some (0xBEEF#32, true, false, [0xBEEF#32]) := by decide
/-- A7. -/
theorem test_detach_keeps_pending :
    after .detach { fresh true with pend := true } (fun t => (t.ie, t.pend)) = some (false, true) := by decide

/-! ### TICK: L2.5 -/

/-- K1. -/
theorem test_tick_counts : (tick (running 1#3 4 2 true)).cnt = 3 := by decide
/-- K2. -/
theorem test_tick_dispatches :
    (fun t : State => (t.cnt, t.dispatches)) (tick (running 1#3 4 4 true)) = (0, [0x11#32]) := by decide
/-- K3, both values of the parameter. -/
theorem test_tick_masked :
    [false, true].map (fun p => (fun t : State => (t.cnt, t.pend, t.dispatches)) (tick (running 1#3 4 4 false p))) =
      [(0, false, []), (0, true, [])] := by decide
/-- K6, K7. -/
theorem test_tick_overshoot_and_wrap :
    ((tick (running 1#3 3 8 true)).cnt, (tick (running 1#3 3 65535 true)).cnt) = (9, 0) := by decide
/-- K10. -/
theorem test_tick_stopped :
    afterStep (scheduling [.tick] (stopped 4#3 1000 42)) (fun t => (t.cnt, t.schedule)) = some (42, []) := by decide

/-! ### Faults: L2.6; the step from reset -/

/-- F1. -/
theorem test_reserved_opcode :
    afterStep (fresh.withFetchWord 40 0x912345678) (fun t => (t.faultReservedOp, t.responses)) =
      some (true, []) := by decide
/-- F2. -/
theorem test_init_keeps_fault :
    after .init { fresh with faultBeforeInit := true } State.faultBeforeInit = some true := by decide
/-- P1, step 1, from the state after reset. -/
theorem test_first_step_after_reset :
    afterStep (State.reset.withFetchWord 40 0x000000000) (fun t => (controllerState t, t.cnt, t.responses)) =
      some (.stopped, 0, [.ack]) := by decide

/-! ### Witnesses of the hypotheses of the statements -/

theorem witness_DecodeOfEncode : (Instr.reserved 0x8#4).wf 32 = true ∧ (Instr.reserved 0xF#4).wf 32 = true ∧
    (Instr.setperiod 4294967296).wf 33 = true ∧ (Instr.attach 0xFFFFFFFF#32).wf 32 = true := by decide
theorem witness_IgnoredArgumentBits :
    0x7#4 ∈ [0x0#4, 0x2#4, 0x3#4, 0x4#4, 0x6#4, 0x7#4] ∧ 0x5#4 ∈ [0x1#4, 0x5#4] ∧
    Instr.getcb ∈ [Instr.init, .start, .stop, .reset, .detach, .getcb] ∧
    4294967295 < 2 ^ 32 ∧
    decode 32 (joinFields 32 0x5#4 0xFFFFFFFF) = decode 32 (joinFields 32 0x5#4 0xFFFFFFFF) := by decide
theorem witness_OpFieldSelectsInstruction :
    0xFFFFFFFFF < 2 ^ (32 + 4) ∧ 8 ≤ (opField 32 0x800000000).toNat ∧ opField 32 0x5FFFFFFFF = 0x5#4 := by decide
theorem witness_EncodeOfDecodeClearsIgnoredBits :
    0xFFFFFFFFF < 2 ^ (32 + 4) ∧ opField 33 0xB00000001 = 0x5#4 ∧ 0xB00000001 < 2 ^ (33 + 4) := by decide
theorem witness_AssemblerOperands :
    parseNumber ['0', 'x', 'F', 'F', 'F', 'F', 'F', 'F', 'F', 'F'] = some 4294967295 ∧
    parseNumber ['4', '2', '9', '4', '9', '6', '7', '2', '9', '6'] = some 4294967296 := by decide
theorem witness_SelectorCodes :
    (vectorParams true).wf = true ∧ (vectorParams true).divs[4]? = some 1024 ∧
    (vectorParams true).ndiv < (6#3).toNat := by decide
theorem witness_CountsIsCeilingMinusOne : 1 ≤ 7 ∧ 1 ≤ 8 ∧ 7 < 8 ∧ 8 ∣ 16 := by decide
theorem witness_ResolvePicksFirstFit :
    (vectorParams true).divs[2]? = some 64 ∧ counts 1000000 64 ≤ (vectorParams true).maxCount ∧
    ∀ j e, j < 2 → (vectorParams true).divs[j]? = some e → (vectorParams true).maxCount < counts 1000000 e := by
  refine ⟨by decide, by decide, ?_⟩
  intro j e hj he
  rcases j with _ | _ | j
  · cases he; decide
  · cases he; decide
  · omega
theorem witness_ResolveSaturates :
    (vectorParams true).wf = true ∧ (vectorParams true).dmax * 2 ^ (vectorParams true).width < 67108865 := by decide
theorem witness_ResolvedSelector : (vectorParams true).wf = true ∧ 1 ≤ 1 := by decide
theorem witness_ResolveClosedForm :
    (vectorParams true).divs[1]? = some 8 ∧ 524288 ≤ 8 * 2 ^ (vectorParams true).width ∧
    (∀ j e, j < 1 → (vectorParams true).divs[j]? = some e → e * 2 ^ (vectorParams true).width < 524288) ∧
    (vectorParams true).dmax * 2 ^ (vectorParams true).width < 67108865 := by
  refine ⟨by decide, by decide, ?_, by decide⟩
  intro j e hj he
  rcases j with _ | j
  · cases he; decide
  · omega
theorem witness_RealisedPeriodBounds :
    (vectorParams true).wf = true ∧ 67108864 ≤ (vectorParams true).dmax * 2 ^ (vectorParams true).width ∧
    (vectorParams true).dmax * 2 ^ (vectorParams true).width < 67108865 := by decide
theorem witness_SaturationIsConstant :
    (vectorParams true).dmax * 2 ^ (vectorParams true).width < 67108865 ∧
    (vectorParams true).dmax * 2 ^ (vectorParams true).width < 4294967295 := by decide
/-- The defaults, where `ARG_W` is 32, and a counter of 22 bits, where it is wider. -/
theorem witness_ArgumentReachesEveryResult :
    (vectorParams true).wf = true ∧ (vectorParams true).dmax * 2 ^ (vectorParams true).width < 2 ^ 32 ∧
    (Params.mk 22 [1, 1024] 33 true).wf = true ∧
    ¬(Params.mk 22 [1, 1024] 33 true).dmax * 2 ^ (Params.mk 22 [1, 1024] 33 true).width < 2 ^ 32 := by decide
theorem witness_EveryPeriodAccepted : controllerState (stopped 0#3 0 0) ≠ .uninitialized := by decide
theorem witness_SetperiodResult :
    controllerState fresh = .uninitialized ∧ controllerState (stopped 0#3 0 0) ≠ .uninitialized ∧
    (resolve (stopped 0#3 0 0).params 0).1 = disabled ∧
    (resolve (stopped 0#3 0 0).params 1).1 ≠ disabled ∧ (stopped 0#3 0 0).params.wf = true := by decide
theorem witness_StartResult :
    controllerState fresh = .uninitialized ∧ (stopped 0#3 0 0).savedCs = disabled ∧
    (stopped 4#3 0 0).savedCs ≠ disabled ∧ controllerState (stopped 4#3 0 0) ≠ .uninitialized ∧
    controllerState (running 4#3 0 0 true) = .running ∧ (running 4#3 0 0 true).clockSelectOk :=
  ⟨by decide, by decide, by decide, by decide, by decide, .inr rfl, by decide⟩
theorem witness_StopResult :
    controllerState fresh = .uninitialized ∧ controllerState (running 4#3 0 0 true) ≠ .uninitialized ∧
    controllerState (stopped 4#3 0 0) = .stopped := by decide
theorem witness_ResetResult :
    (running 4#3 65535 0 true).compareReg ≤ (running 4#3 65535 0 true).params.maxCount := by decide
theorem witness_GetcbResult :
    ∀ e ∈ [Event.tick, .command (encode 32 .detach), .powerOn 1 2], e.isAttach 32 = false := by decide
theorem witness_ControllerTransitions :
    fresh.params.wf = true ∧ controllerState fresh = .uninitialized ∧ needsInit .stop = true := by decide
theorem witness_AttachResult : fresh.pend = false ∧ { fresh true with pend := true }.pend = true := by decide
theorem witness_HandlerRetention :
    ∀ e ∈ [Event.tick, .command (encode 32 .detach)], e.isAttach 32 = false ∧ e.isPowerOn = false := by decide
theorem witness_SlotChangesOnlyByItsCommands :
    afterStep (scheduling [.command (encode 32 (.attach 0x5#32))] fresh) (fun t => (t.handler, t.ie)) =
      some (0x5#32, true) ∧
    afterStep (scheduling [.command (encode 32 .detach)] (running 1#3 0 0 true)) State.ie = some false ∧
    (scheduling [.command (encode 32 .detach)] (running 1#3 0 0 true)).nextIsPowerOn = false := by decide
theorem witness_CommandFootprints :
    (Instr.detach = .detach ∨ ∃ h, Instr.detach = .attach h) ∧ (Instr.start = .start ∨ Instr.start = .stop) :=
  ⟨.inl rfl, .inl rfl⟩
theorem witness_TickOnlyWhileRunning :
    (scheduling [.tick] fresh).schedule = .tick :: [] ∧ controllerState (scheduling [.tick] fresh) ≠ .running := by
  decide
theorem witness_TickResult :
    controllerState (running 1#3 4 2 true) = .running ∧ (running 1#3 4 2 true).cnt ≠ 4 ∧
    (running 1#3 65535 65535 true).cnt = (running 1#3 65535 65535 true).compareReg ∧
    (running 1#3 0 0 false true).cnt = (running 1#3 0 0 false true).compareReg ∧
    (running 1#3 0 0 false true).params.maskedMatchPends = true ∧
    (running 1#3 0 0 false false).params.maskedMatchPends = false := by decide
/-- The count stands above the compare value: 65534 ticks pass before the match. -/
theorem witness_NextMatchTick :
    (running 1#3 1 3 true).countersOk ∧ controllerState (running 1#3 1 3 true) = .running ∧
    65534 = ((running 1#3 1 3 true).compareReg + 2 ^ (running 1#3 1 3 true).params.width -
      (running 1#3 1 3 true).cnt) % 2 ^ (running 1#3 1 3 true).params.width ∧
    (running 1#3 65535 65535 true).countersOk :=
  ⟨⟨by decide, by decide⟩, by decide, by decide, ⟨by decide, by decide⟩⟩
theorem witness_OneMatchPerPeriod :
    (scheduling [.tick, .tick] (running 1#3 0 0 true)).countersOk ∧
    (scheduling [.tick, .tick] (running 1#3 0 0 true)).cnt = 0 ∧
    (scheduling [.tick, .tick] (running 1#3 0 0 true)).schedule = List.replicate (2 * (0 + 1)) .tick ++ [] :=
  ⟨⟨by decide, by decide⟩, by decide, by decide⟩
theorem witness_PendingDelivery :
    afterStep (scheduling [.command (encode 32 (.attach 0x5#32))] { fresh true with pend := true }) State.pend =
      some false ∧
    afterStep (scheduling [.tick] (running 1#3 0 0 false)) State.pend = some false := by decide
theorem witness_DispatchCauses :
    afterStep (scheduling [.tick] (running 1#3 0 0 true)) State.dispatches = some [0x11#32] ∧
    afterStep (scheduling [.command (encode 32 (.attach 0x5#32))] { fresh true with pend := true })
      State.dispatches = some [0x5#32] ∧
    afterStep (scheduling [.tick] (running 1#3 1 0 true)) State.dispatches = some [] := by decide
theorem witness_BeforeInitFault :
    controllerState fresh = .uninitialized ∧ needsInit (.setperiod 5) = true ∧ needsInit .start = true ∧
    needsInit .stop = true := by decide
theorem witness_ReservedOpcodeFault : 8 ≤ (0x8#4).toNat ∧ 8 ≤ (0xF#4).toNat := by decide
theorem witness_FaultBitsSticky :
    afterStep (scheduling [.command (encode 32 .init)]
      { fresh with faultBeforeInit := true, faultReservedOp := true })
      (fun t => (t.faultBeforeInit, t.faultReservedOp)) = some (true, true) := by decide
theorem witness_RegisterWriters :
    afterStep (scheduling [.command (encode 32 .init)] fresh) State.mode = some .ctc ∧
    afterStep (scheduling [.command (encode 32 (.setperiod 65536))] (stopped 0#3 0 0))
      (fun t => (t.cs, t.compareReg, t.savedCs)) = some (1#3, 65535, 1#3) ∧
    afterStep (scheduling [.command 0x800000000] fresh) State.faultReservedOp = some true := by decide
theorem witness_InitResult :
    { fresh with mode := .ctc, responses := [.ack] } =
      { fresh with mode := .ctc, cs := disabled, cnt := 0, responses := fresh.responses ++ [.ack] } := by decide
theorem witness_PowerOnState : fresh true = State.powerOn (vectorParams true) 65536 0 := by decide
theorem witness_AfterPowerOn : fresh false = State.powerOn (vectorParams false) 0 65536 := by decide
theorem witness_PowerOnEventResult :
    (scheduling [.powerOn 65535 65536] (running 1#3 4 2 true)).schedule = .powerOn 65535 65536 :: [] ∧
    afterStep (scheduling [.powerOn 65535 65536] (running 1#3 4 2 true)) (fun t => (t.compareReg, t.cnt)) =
      some (65535, 0) := by decide
theorem witness_WaitsWithNothingScheduled : State.reset.schedule = [] := by decide
theorem witness_InvariantAfterPowerOn : (vectorParams false).wf = true := by decide
theorem witness_StepKeepsInvariant :
    (scheduling [.tick] (running 5#3 65535 65535 true)).Inv ∧
    afterStep (scheduling [.tick] (running 5#3 65535 65535 true)) State.cnt = some 0 :=
  ⟨⟨by decide, ⟨.inr rfl, by decide⟩, ⟨by decide, by decide⟩, ⟨by decide, by decide⟩, ⟨by decide, by decide⟩⟩,
    by decide⟩
theorem witness_ClockSelectStaysOk :
    (scheduling [.command (encode 32 .start)] (stopped 4#3 0 0)).clockSelectOk ∧
    afterStep (scheduling [.command (encode 32 .start)] (stopped 4#3 0 0)) State.cs = some 4#3 :=
  ⟨⟨.inl rfl, by decide⟩, by decide⟩
theorem witness_DisabledExactlyWhenStopped :
    (stopped 0#3 0 0).mode = .ctc ∧ (running 5#3 0 0 true).clockSelectOk ∧
    controllerState (running 5#3 0 0 true) = .running :=
  ⟨by decide, ⟨.inr rfl, by decide⟩, by decide⟩
theorem witness_PendImpliesMasked :
    (scheduling [.tick] (running 1#3 0 0 false true)).ie = false ∧
    afterStep (scheduling [.tick] (running 1#3 0 0 false true)) State.pend = some true := by decide
theorem witness_ReservedSelectorsNeverWritten :
    (stopped 5#3 0 0).params.wf = true ∧ (stopped 5#3 0 0).selectorsOk ∧
    afterStep (scheduling [.command (encode 32 .start)] (stopped 5#3 0 0)) State.cs = some 5#3 :=
  ⟨by decide, ⟨by decide, by decide⟩, by decide⟩
theorem witness_StepRunsDecodedCommand :
    (scheduling [.command 0x700000000] fresh).schedule = .command 0x700000000 :: [] ∧
    Instr.getcb.wf 32 = true := by decide
theorem witness_StartResumes :
    controllerState (scheduling (.command (encode 32 .start) :: [.tick]) (stopped 1#3 3 3)) =
      .stopped ∧
    (stopped 1#3 3 3).savedCs ≠ disabled ∧ (stopped 1#3 3 3).countersOk ∧
    (scheduling (.command (encode 32 .start) :: [.tick]) (stopped 1#3 3 3)).schedule =
      .command (encode 32 .start) :: (List.replicate (3 + 1 - 3) .tick ++ []) :=
  ⟨by decide, by decide, ⟨by decide, by decide⟩, by decide⟩
theorem witness_ResetAppliesNewPeriod :
    (running 1#3 9 8 true).params.wf = true ∧ controllerState (running 1#3 9 8 true) = .running ∧
    1 ≤ 1 ∧ 1 < 2 ^ (running 1#3 9 8 true).params.argWidth ∧
    0 = (resolve (running 1#3 9 8 true).params 1).2 ∧
    (scheduling [.command (encode 32 (.setperiod 1)), .command (encode 32 .reset), .tick]
        (running 1#3 9 8 true)).schedule =
      .command (encode 32 (.setperiod 1)) :: .command (encode 32 .reset) ::
        (List.replicate (0 + 1) .tick ++ []) := by decide
theorem witness_InitFirstRecordsNoFault :
    (scheduling [.command (encode 32 .init), .command (encode 32 .start)] fresh).noFault = true ∧
    bootOrder 32 (decide (fresh.mode = .ctc)) [.command (encode 32 .init), .command (encode 32 .start)] = true ∧
    bootOrder 32 (decide (fresh.mode = .ctc)) [.command (encode 32 .start)] = false := by decide
theorem witness_PhaseInRange :
    divisorOf (running 5#3 0 0 true).params (running 5#3 0 0 true).cs = some 1024 ∧ 1 ≤ 1024 := by decide

end Sys2Proof.Tests
end

/-! ### Proofs: how far a command's argument reaches (00_scope.md R12, 90_conflicts.md C7) -/

namespace Sys2Proof

/-- Every period of `n` bits stands in some SETPERIOD word of `n + 4` bits (30_encoding.md R47, R51). -/
theorem exists_word_decode_setperiod {n a : Nat} (ha : a < 2 ^ n) :
    ∃ w, w < 2 ^ (n + 4) ∧ decode n w = .setperiod a :=
  ⟨encode n (.setperiod a), joinFields_lt n _ _, decode_encode (decide_eq_true ha)⟩

/-- The least saturating period, one more than `DMAX * 2^W` (40_period_resolver.md R64). -/
def Params.leastSaturating (p : Params) : Nat := p.dmax * 2 ^ p.width + 1

theorem Params.lt_leastSaturating (p : Params) : p.dmax * 2 ^ p.width < p.leastSaturating := Nat.lt_succ_self _

/-- The default parameters are legal, whatever the open `P_MASKED_MATCH_PENDS`. -/
theorem Config.default_wf : Config.default.wf = true := by decide

/-- For the defaults the least saturating period is 67,108,865. -/
theorem Config.default_leastSaturating : Config.default.leastSaturating = 67108865 := by decide

end Sys2Proof

namespace Sys2Proof.Machine

/-- The argument field of legal parameters holds the least saturating period: `DMAX * 2^W` is below `2^ARG_W`, and both
are even, so its successor is below too. -/
theorem Params.leastSaturating_lt {p : Params} (h : p.wf = true) : p.leastSaturating < 2 ^ p.argWidth := by
  obtain ⟨hlt, hge⟩ := Params.argWidth_wide h
  have hwidth : p.width ≠ 0 := Nat.one_le_iff_ne_zero.mp (Params.width_pos h)
  have hbound : 2 ∣ p.dmax * 2 ^ p.width := (dvd_pow_self 2 hwidth).mul_left p.dmax
  have hfield : 2 ∣ 2 ^ p.argWidth := dvd_pow_self 2 (by omega)
  rw [Params.leastSaturating]
  omega

/-- R64: a period above `DMAX * 2^W` saturates, since no divisor's count fits. -/
theorem resolve_of_saturating {p : Params} (h : p.wf = true) {period : Nat}
    (hp : p.dmax * 2 ^ p.width < period) : resolve p period = (sel p p.dmax, p.maxCount) := by
  rcases resolve_cases p period with ⟨h0, -⟩ | ⟨h1, d, hd, -, hfit, -⟩ | ⟨-, -, -, hr⟩
  · omega
  · have hle : period ≤ d * 2 ^ p.width := (counts_le_maxCount_iff h1 (Params.one_le_of_mem h hd)).mp hfit
    have := Nat.mul_le_mul_right (2 ^ p.width) (Params.le_dmax h hd)
    omega
  · exact hr

/-- Cutting a period down to the least saturating one does not change what it resolves to: all saturating periods
resolve alike (R69). -/
theorem resolve_min_leastSaturating {p : Params} (h : p.wf = true) (period : Nat) :
    resolve p (min period p.leastSaturating) = resolve p period := by
  rcases Nat.le_total period p.leastSaturating with hle | hge
  · rw [Nat.min_eq_left hle]
  · rw [Nat.min_eq_right hge, resolve_of_saturating h p.lt_leastSaturating, resolve_of_saturating h hge]

/-- Settles O58: the period cut down to the least saturating one resolves alike, and the argument field holds it. -/
theorem argumentReachesEveryResult : Obligations.ArgumentReachesEveryResult := by
  refine ⟨rfl, fun p h hs => Params.argWidth_eq h hs, fun p h => ⟨fun period => ?_, ?_⟩, fun period => ?_⟩
  · obtain ⟨w, hw, hdec⟩ :=
      exists_word_decode_setperiod ((Nat.min_le_right period _).trans_lt (Params.leastSaturating_lt h))
    exact ⟨w, _, hw, hdec, resolve_min_leastSaturating h period⟩
  · obtain ⟨w, hw, hdec⟩ := exists_word_decode_setperiod (Params.leastSaturating_lt h)
    exact ⟨w, _, hw, hdec, p.lt_leastSaturating⟩
  · refine ⟨_, ?_, resolve_min_leastSaturating Config.default_wf period⟩
    rw [Config.default_leastSaturating]
    omega

/-! ### Proofs: the phase draw (00_scope.md R14, 70_reset_and_hazards.md R111) -/

theorem one_le_phase (n d : Nat) : 1 ≤ phase n d := Nat.succ_pos _

theorem phase_le (n : Nat) {d : Nat} (hd : 1 ≤ d) : phase n d ≤ d := Nat.mod_lt _ hd

/-- R111: while the counter advances, the first match comes after the phase and one divisor per TICK before it. -/
theorem ticksToFirstMatch_of_divisor (n : Nat) {s : State} {d : Nat} (hd : divisorOf s.params s.cs = some d) :
    ticksToFirstMatch n s = some (phase n d + ticksBeforeMatch s * d) := by
  rw [ticksToFirstMatch, hd, Option.map_some]

/-- Settles O57: the draw is a remainder of `d` plus one, and R111's sum moves with it. -/
theorem phaseInRange : Obligations.PhaseInRange := by
  refine ⟨fun n d hd => ⟨one_le_phase n d, phase_le n hd⟩, fun s n d hsel hd => ?_⟩
  have hlow := one_le_phase n d
  have hhigh := phase_le n hd
  refine ⟨_, ticksToFirstMatch_of_divisor n hsel, by omega, ?_⟩
  rw [Nat.succ_mul]
  omega

end Sys2Proof.Machine

/-! ### Proofs: what every step keeps (10_state.md R21 to R36) -/

namespace Sys2Proof.Machine

/-! #### Steps and runs -/

/-- A step with nothing scheduled (20_memory.md R41). -/
theorem step_of_nil {s : State} (hs : s.schedule = []) : step s = .next s := by
  rw [step, fetch_of_nil s hs]

/-- The step of a command word. -/
theorem step_of_command {s : State} {w : Nat} {rest : List Event} (hs : s.schedule = .command w :: rest) :
    step s = exec (decode s.params.argWidth w) { s with schedule := rest } := by
  rw [step, fetch_of_cons s hs]

/-- No event stops the block. -/
theorem exists_step_next (s : State) : ∃ t, step s = .next t := by
  cases hs : s.schedule with
  | nil => exact ⟨s, step_of_nil hs⟩
  | cons e rest =>
    cases e with
    | command w =>
      obtain ⟨t, ht, -, -⟩ := exec_answers_next (decode s.params.argWidth w) { s with schedule := rest }
      exact ⟨t, (step_of_command hs).trans ht⟩
    | tick => exact ⟨_, step_of_tick hs⟩
    | powerOn c n => exact ⟨_, step_of_powerOn hs⟩

/-- Steps by cases, once: a property that ignores the schedule is kept by every step when commands and TICKs keep it and
power-on reset establishes it again. -/
theorem step_keeps {P : State → Prop} {s t : State}
    (schedule : ∀ u rest, P u → P { u with schedule := rest })
    (command : ∀ i u v, exec i u = .next v → P u → P v)
    (ticks : ∀ u, controllerState u = .running → P u → P (tick u))
    (powerOn : ∀ u c n, P u → P (State.powerOn u.params c n))
    (h : step s = .next t) (hs : P s) : P t := by
  rcases step_cases h with ⟨-, rfl⟩ | ⟨w, rest, -, hexec⟩ | ⟨rest, -, rfl⟩ | ⟨c, n, rest, -, rfl⟩
  · exact hs
  · exact command _ _ _ hexec (schedule s rest hs)
  · by_cases hrun : controllerState { s with schedule := rest } = .running
    · rw [offerTick_running hrun]
      exact ticks _ hrun (schedule s rest hs)
    · rw [offerTick_not_running hrun]
      exact schedule s rest hs
  · exact schedule _ rest (powerOn s c n hs)

/-- Two runs by induction, once: what every pair of steps establishes again holds after any number of steps of both. -/
theorem reaches_of_steps_keep {R : State → State → Prop}
    (keeps : ∀ s s', R s s' → ∃ t t', step s = .next t ∧ step s' = .next t' ∧ R t t') (k : Nat) {s s' : State}
    (hs : R s s') : ∃ t t', reaches k s t ∧ reaches k s' t' ∧ R t t' := by
  induction k generalizing s s' with
  | zero => exact ⟨s, s', reaches_zero s, reaches_zero s', hs⟩
  | succ k ih =>
    obtain ⟨t, t', hst, hst', ht⟩ := keeps s s' hs
    obtain ⟨u, u', hu, hu', hR⟩ := ih ht
    exact ⟨u, u', reaches_succ hst hu, reaches_succ hst' hu', hR⟩

theorem exec_params {i : Instr} {s t : State} (h : exec i s = .next t) : t.params = s.params := by
  obtain ⟨u, hu, -, hp⟩ := exec_answers_next i s
  cases h.symm.trans hu
  exact hp

@[simp] theorem tick_params (s : State) : (tick s).params = s.params := by rw [tick_eq]

/-! #### The clock select (R32, R33) -/

/-- What a command does to `MODE`, `CS` and `SAVED_CS`: nothing; or INIT or STOP disconnects the clock; or START copies the
remembered selector; or SETPERIOD stores a resolved one twice. -/
theorem exec_selector_cases {i : Instr} {s t : State} (h : exec i s = .next t) :
    (t.mode = s.mode ∧ t.cs = s.cs ∧ t.savedCs = s.savedCs) ∨
    (t.cs = disabled ∧ t.savedCs = s.savedCs) ∨
    (t.mode = .ctc ∧ t.cs = s.savedCs ∧ t.savedCs = s.savedCs) ∨
    (∃ period, t.mode = .ctc ∧ t.cs = (resolve s.params period).1 ∧ t.savedCs = (resolve s.params period).1) := by
  rcases exec_cases h with ⟨-, rfl⟩ | ⟨-, -, rfl⟩ | ⟨period, _, -, hm, rfl, rfl⟩ | ⟨-, hm, rfl⟩ | ⟨-, -, rfl⟩ |
    ⟨-, rfl⟩ | ⟨_, -, rfl⟩ | ⟨-, rfl⟩ | ⟨-, rfl⟩ | ⟨_, -, rfl⟩
  · exact .inr (.inl ⟨rfl, rfl⟩)
  · exact .inl ⟨rfl, rfl, rfl⟩
  · exact .inr (.inr (.inr ⟨period, hm, rfl, rfl⟩))
  · by_cases hsaved : s.savedCs = disabled
    · exact .inl ⟨rfl, if_pos hsaved, rfl⟩
    · exact .inr (.inr (.inl ⟨hm, if_neg hsaved, rfl⟩))
  · exact .inr (.inl ⟨rfl, rfl⟩)
  all_goals exact .inl ⟨rfl, rfl, rfl⟩

theorem exec_keeps_clockSelectOk {i : Instr} {s t : State} (h : exec i s = .next t) (hs : s.clockSelectOk) :
    t.clockSelectOk := by
  rcases exec_selector_cases h with ⟨hm, hcs, hsaved⟩ | ⟨hcs, -⟩ | ⟨hm, hcs, hsaved⟩ | ⟨_, hm, hcs, hsaved⟩
  · rwa [State.clockSelectOk, hm, hcs, hsaved]
  · exact ⟨.inl hcs, fun _ => hcs⟩
  · exact ⟨.inr (hcs.trans hsaved.symm), by simp [hm]⟩
  · exact ⟨.inr (hcs.trans hsaved.symm), by simp [hm]⟩

theorem tick_keeps_clockSelectOk {s : State} (hs : s.clockSelectOk) : (tick s).clockSelectOk := by
  rw [tick_eq]
  exact hs

theorem powerOn_clockSelectOk (p : Params) (c n : Nat) : (State.powerOn p c n).clockSelectOk :=
  ⟨.inl rfl, fun _ => rfl⟩

theorem step_keeps_clockSelectOk {s t : State} (h : step s = .next t) (hs : s.clockSelectOk) : t.clockSelectOk :=
  step_keeps (P := State.clockSelectOk) (fun _ _ hu => hu) (fun _ _ _ => exec_keeps_clockSelectOk)
    (fun _ _ => tick_keeps_clockSelectOk) (fun u c n _ => powerOn_clockSelectOk u.params c n) h hs

/-- While running, R32 leaves one choice for `CS`: it is the remembered selector, which is not `DISABLED`. -/
theorem savedCs_ne_disabled_of_running {s : State} (hs : s.clockSelectOk) (hrun : controllerState s = .running) :
    s.savedCs ≠ disabled := by
  obtain ⟨-, hcs⟩ := (controllerState_eq_running_iff s).mp hrun
  obtain ⟨hd | hsaved, -⟩ := hs
  · exact absurd hd hcs
  · exact hsaved ▸ hcs

/-- STOP once INIT has run (41_timer_controller.md R74). -/
theorem exec_stop_of_ctc {s : State} (hm : s.mode = .ctc) :
    exec .stop s = .next (respond .ack (setClockSelect disabled s)) := by
  rw [exec, execStop, if_neg ((controllerState_ne_uninitialized_iff s).mpr hm)]

/-! #### A latched match (R28, R34) -/

/-- `PEND = 1` implies `IE = 0` (R34), the first half of `State.pendOk`. -/
def State.pendMasked (s : State) : Prop := s.pend = true → s.ie = false

/-- `PEND` is 0 where the parameter is false (R28), the second half of `State.pendOk`. -/
def State.pendAllowed (s : State) : Prop := s.params.maskedMatchPends = false → s.pend = false

/-- A command leaves `PEND` and `IE` alone, or it is ATTACH and clears `PEND`, or it is DETACH and clears `IE`. -/
theorem exec_pend_cases {i : Instr} {s t : State} (h : exec i s = .next t) :
    (t.pend = s.pend ∧ t.ie = s.ie) ∨ t.pend = false ∨ (t.pend = s.pend ∧ t.ie = false) := by
  rcases exec_cases h with ⟨-, rfl⟩ | ⟨-, -, rfl⟩ | ⟨_, r, -, -, -, rfl⟩ | ⟨-, -, rfl⟩ | ⟨-, -, rfl⟩ |
    ⟨-, rfl⟩ | ⟨_, -, rfl⟩ | ⟨-, rfl⟩ | ⟨-, rfl⟩ | ⟨_, -, rfl⟩
  -- ATTACH and DETACH stand in places 7 and 8 of `exec_cases`.
  on_goal 8 => exact .inr (.inr ⟨rfl, rfl⟩)
  on_goal 7 => exact .inr (.inl rfl)
  all_goals exact .inl ⟨rfl, rfl⟩

theorem exec_keeps_pendMasked {i : Instr} {s t : State} (h : exec i s = .next t) (hs : s.pendMasked) :
    t.pendMasked := by
  intro hp
  rcases exec_pend_cases h with ⟨hpend, hie⟩ | hpend | ⟨-, hie⟩
  · exact hie.trans (hs (hpend ▸ hp))
  · simp [hpend] at hp
  · exact hie

theorem exec_keeps_pendAllowed {i : Instr} {s t : State} (h : exec i s = .next t) (hs : s.pendAllowed) :
    t.pendAllowed := by
  intro hp
  rw [exec_params h] at hp
  rcases exec_pend_cases h with ⟨hpend, -⟩ | hpend | ⟨hpend, -⟩
  · exact hpend.trans (hs hp)
  · exact hpend
  · exact hpend.trans (hs hp)

/-- A TICK keeps `IE`; it latches a match only while masked and where the parameter says so. -/
theorem tick_keeps_pendMasked {s : State} (hs : s.pendMasked) : (tick s).pendMasked := by
  rw [tick_eq]
  intro hp
  simp only [Bool.or_eq_true, Bool.and_eq_true, Bool.not_eq_true'] at hp
  rcases hp with hp | ⟨-, hie, -⟩
  · exact hs hp
  · exact hie

theorem tick_keeps_pendAllowed {s : State} (hs : s.pendAllowed) : (tick s).pendAllowed := by
  rw [tick_eq]
  intro hp
  simp [hs hp, show s.params.maskedMatchPends = false from hp]

theorem exec_keeps_pendOk {i : Instr} {s t : State} (h : exec i s = .next t) : s.pendOk → t.pendOk :=
  And.imp (exec_keeps_pendMasked h) (exec_keeps_pendAllowed h)

theorem tick_keeps_pendOk {s : State} : s.pendOk → (tick s).pendOk :=
  And.imp tick_keeps_pendMasked tick_keeps_pendAllowed

/-! #### Selectors and counters (R23, R24; 30_encoding.md R54) -/

/-- No period resolves to a reserved selector. -/
theorem resolve_selector_toNat_le {p : Params} (h : p.wf = true) (period : Nat) :
    (resolve p period).1.toNat ≤ p.ndiv := by
  rcases Nat.eq_zero_or_pos period with rfl | hp
  · exact Nat.zero_le _
  · obtain ⟨d, hd, hr⟩ := resolve_selector h hp
    rw [hr]
    exact sel_toNat_le h hd

theorem exec_keeps_selectorsOk {i : Instr} {s t : State} (hwf : s.params.wf = true) (h : exec i s = .next t)
    (hs : s.selectorsOk) : t.selectorsOk := by
  obtain ⟨hcsOk, hsavedOk⟩ := hs
  rw [State.selectorsOk, exec_params h]
  rcases exec_selector_cases h with ⟨-, hcs, hsaved⟩ | ⟨hcs, hsaved⟩ | ⟨-, hcs, hsaved⟩ | ⟨period, -, hcs, hsaved⟩ <;>
    rw [hcs, hsaved]
  · exact ⟨hcsOk, hsavedOk⟩
  · exact ⟨Nat.zero_le _, hsavedOk⟩
  · exact ⟨hsavedOk, hsavedOk⟩
  · have hle := resolve_selector_toNat_le hwf period
    exact ⟨hle, hle⟩

/-- What a `W`-bit register holds is at most `MAXCOUNT`. -/
theorem mod_le_maxCount (p : Params) (v : Nat) : v % 2 ^ p.width ≤ p.maxCount := by
  have hlt := Nat.mod_lt v (Nat.two_pow_pos p.width)
  have hmax := maxCount_add_one p
  omega

theorem exec_keeps_countersOk {i : Instr} {s t : State} (h : exec i s = .next t) (hs : s.countersOk) :
    t.countersOk := by
  obtain ⟨hcompare, hcnt⟩ := hs
  rcases exec_cases h with ⟨-, rfl⟩ | ⟨-, -, rfl⟩ | ⟨period, _, -, -, rfl, rfl⟩ | ⟨-, -, rfl⟩ | ⟨-, -, rfl⟩ |
    ⟨-, rfl⟩ | ⟨_, -, rfl⟩ | ⟨-, rfl⟩ | ⟨-, rfl⟩ | ⟨_, -, rfl⟩
  · exact ⟨hcompare, Nat.zero_le _⟩
  · exact ⟨hcompare, hcnt⟩
  · refine ⟨?_, hcnt⟩
    by_cases hd : (resolve s.params period).1 = disabled
    · simp [hd]
    · simpa [hd] using resolve_compare_le s.params period
  · exact ⟨hcompare, hcnt⟩
  · exact ⟨hcompare, hcnt⟩
  · exact ⟨hcompare, Nat.zero_le _⟩
  all_goals exact ⟨hcompare, hcnt⟩

theorem tick_keeps_countersOk {s : State} (hs : s.countersOk) : (tick s).countersOk := by
  obtain ⟨hcompare, -⟩ := hs
  rw [tick_eq]
  refine ⟨hcompare, ?_⟩
  by_cases hmatch : s.cnt = s.compareReg
  · simp [hmatch]
  · simpa [hmatch] using mod_le_maxCount s.params (s.cnt + 1)

theorem powerOn_countersOk (p : Params) (c n : Nat) : (State.powerOn p c n).countersOk :=
  ⟨mod_le_maxCount p c, mod_le_maxCount p n⟩

/-! #### The whole invariant -/

theorem powerOn_inv {p : Params} (h : p.wf = true) (c n : Nat) : (State.powerOn p c n).Inv where
  params := h
  clockSelect := powerOn_clockSelectOk p c n
  pend := ⟨fun _ => rfl, fun _ => rfl⟩
  selectors := ⟨Nat.zero_le _, Nat.zero_le _⟩
  counters := powerOn_countersOk p c n

theorem exec_keeps_inv {i : Instr} {s t : State} (h : exec i s = .next t) (hs : s.Inv) : t.Inv where
  params := (exec_params h).symm ▸ hs.params
  clockSelect := exec_keeps_clockSelectOk h hs.clockSelect
  pend := exec_keeps_pendOk h hs.pend
  selectors := exec_keeps_selectorsOk hs.params h hs.selectors
  counters := exec_keeps_countersOk h hs.counters

theorem tick_keeps_inv {s : State} (hs : s.Inv) : (tick s).Inv where
  params := (tick_params s).symm ▸ hs.params
  clockSelect := tick_keeps_clockSelectOk hs.clockSelect
  pend := tick_keeps_pendOk hs.pend
  selectors := by
    rw [tick_eq]
    exact hs.selectors
  counters := tick_keeps_countersOk hs.counters

/-- Settles O46: commands and TICKs keep each part of the invariant, and power-on reset establishes it. -/
theorem stepKeepsInvariant : Obligations.StepKeepsInvariant := fun _ _ hs h =>
  step_keeps (P := State.Inv)
    (fun _ _ hu => ⟨hu.params, hu.clockSelect, hu.pend, hu.selectors, hu.counters⟩)
    (fun _ _ _ => exec_keeps_inv) (fun _ _ => tick_keeps_inv) (fun _ c n hu => powerOn_inv hu.params c n) h hs

/-- Settles O47: every step keeps R32's invariant. -/
theorem clockSelectStaysOk : Obligations.ClockSelectStaysOk := fun _ _ hs h => step_keeps_clockSelectOk h hs

/-- Settles O48: `STOPPED` is read off `CS`, while STOP leaves the remembered selector of the running block. -/
theorem disabledExactlyWhenStopped : Obligations.DisabledExactlyWhenStopped := by
  refine ⟨fun s hm => by simp [controllerState_eq_stopped_iff, hm], fun s hs hrun => ?_⟩
  obtain ⟨hm, -⟩ := (controllerState_eq_running_iff s).mp hrun
  have hsaved : s.savedCs ≠ disabled := savedCs_ne_disabled_of_running hs hrun
  exact ⟨_, exec_stop_of_ctc hm, (controllerState_eq_stopped_iff _).mpr ⟨hm, rfl⟩, hsaved⟩

/-- Settles O49: a match is latched only while masked, and ATTACH, which unmasks, clears it. -/
theorem pendImpliesMasked : Obligations.PendImpliesMasked := fun _ _ hs h =>
  step_keeps (P := State.pendMasked) (fun _ _ hu => hu) (fun _ _ _ => exec_keeps_pendMasked)
    (fun _ _ => tick_keeps_pendMasked) (fun _ _ _ _ _ => rfl) h hs

/-- Settles O42: R36's table is the definition of the power-on state, whose two drawn registers keep their `W` bits. -/
theorem powerOnState : Obligations.PowerOnState := by
  refine ⟨?_, 0, 0, rfl⟩
  rintro p c n s rfl
  exact ⟨rfl, rfl, rfl, rfl, rfl, rfl, rfl, rfl, rfl, rfl, powerOn_countersOk p c n, rfl⟩

/-- Settles O45: the power-on state of legal parameters, of which the defaults are some. -/
theorem invariantAfterPowerOn : Obligations.InvariantAfterPowerOn :=
  ⟨fun _ c n h => powerOn_inv h c n, powerOn_inv Config.default_wf 0 0⟩

end Sys2Proof.Machine

/-! ### Proofs: the power-on draws are never observed (10_state.md R23, R24) -/

namespace Sys2Proof.Machine

/-- The block with other values in the two registers that power-on reset leaves unspecified. -/
def State.withDraws (c n : Nat) (s : State) : State := { s with compareReg := c, cnt := n }

/-- Other values of `COMPARE` and `CNT` that `s` hides: they differ from its own only as long as nothing can read them.
`CNT` is written by INIT, and `COMPARE` together with the remembered selector. -/
structure State.Hides (s : State) (c n : Nat) : Prop where
  compareReg : s.savedCs ≠ disabled → c = s.compareReg
  cnt : s.mode = .ctc → n = s.cnt

theorem State.withDraws_self (s : State) : s.withDraws s.compareReg s.cnt = s := rfl

theorem State.hides_self (s : State) : s.Hides s.compareReg s.cnt := ⟨fun _ => rfl, fun _ => rfl⟩

@[simp] theorem controllerState_withDraws (c n : Nat) (s : State) :
    controllerState (s.withDraws c n) = controllerState s := rfl

/-- A running block hides nothing: INIT has written `CNT`, and the SETPERIOD that connected the clock `COMPARE`. -/
theorem State.Hides.withDraws_of_running {s : State} {c n : Nat} (hh : s.Hides c n) (hs : s.clockSelectOk)
    (hrun : controllerState s = .running) : s.withDraws c n = s := by
  obtain ⟨hm, -⟩ := (controllerState_eq_running_iff s).mp hrun
  rw [hh.compareReg (savedCs_ne_disabled_of_running hs hrun), hh.cnt hm, State.withDraws_self]

/-- Storing a period writes `COMPARE` whatever it held. -/
theorem storePeriod_withDraws (r : Selector × Nat) (c n : Nat) (s : State) :
    storePeriod r (s.withDraws c n) = (storePeriod r s).withDraws (storePeriod r s).compareReg n := by
  rw [storePeriod_eq, storePeriod_eq]
  rfl

theorem deliverPending_withDraws (h : Token) (c n : Nat) (s : State) :
    deliverPending h (s.withDraws c n) = (deliverPending h s).withDraws c n := by
  rw [deliverPending_eq, deliverPending_eq]
  rfl

/-- A command reads neither register: what it does not write it carries along, and it stays hidden. -/
theorem exec_withDraws {i : Instr} {s t : State} {c n : Nat} (h : exec i s = .next t) (hh : s.Hides c n) :
    ∃ c' n', exec i (s.withDraws c n) = .next (t.withDraws c' n') ∧ t.Hides c' n' := by
  obtain ⟨hcompare, hcnt⟩ := hh
  cases i with
  | init =>
    cases h
    exact ⟨c, _, rfl, hcompare, fun _ => rfl⟩
  | setperiod period =>
    rw [exec, execSetperiod] at h ⊢
    rw [controllerState_withDraws]
    split at h
    · cases h
      exact ⟨c, n, if_pos ‹_›, hcompare, hcnt⟩
    · cases h
      refine ⟨_, n, ?_, fun _ => rfl, ?_⟩
      · rw [if_neg ‹_›, storePeriod_withDraws]
        rfl
      · rw [storePeriod_eq]
        exact hcnt
  | start =>
    rw [exec, execStart] at h ⊢
    rw [controllerState_withDraws]
    split at h
    · cases h
      exact ⟨c, n, if_pos ‹_›, hcompare, hcnt⟩
    · rw [if_neg ‹_›]
      split at h <;> cases h
      · exact ⟨c, n, if_pos ‹_›, hcompare, hcnt⟩
      · exact ⟨c, n, if_neg ‹_›, hcompare, hcnt⟩
  | stop =>
    rw [exec, execStop] at h ⊢
    rw [controllerState_withDraws]
    split at h <;> cases h
    · exact ⟨c, n, if_pos ‹_›, hcompare, hcnt⟩
    · exact ⟨c, n, if_neg ‹_›, hcompare, hcnt⟩
  | reset =>
    cases h
    exact ⟨c, _, rfl, hcompare, fun _ => rfl⟩
  | attach handler =>
    cases h
    have hdeliver := deliverPending_withDraws handler c n (setEnable true (setHandler handler s))
    refine ⟨c, n, congrArg (fun u => Host.Outcome.next (respond .ack u)) hdeliver, ?_⟩
    rw [deliverPending_eq]
    exact ⟨hcompare, hcnt⟩
  | detach =>
    cases h
    exact ⟨c, n, rfl, hcompare, hcnt⟩
  | getcb =>
    cases h
    exact ⟨c, n, rfl, hcompare, hcnt⟩
  | reserved op =>
    cases h
    exact ⟨c, n, rfl, hcompare, hcnt⟩

/-- An edge is offered to two blocks alike: a running one is the same block, any other ignores it. -/
theorem offerTick_withDraws {s : State} {c n : Nat} (hs : s.clockSelectOk) (hh : s.Hides c n) :
    ∃ c' n', offerTick (s.withDraws c n) = (offerTick s).withDraws c' n' ∧ (offerTick s).Hides c' n' := by
  by_cases hrun : controllerState s = .running
  · rw [hh.withDraws_of_running hs hrun]
    exact ⟨_, _, rfl, State.hides_self _⟩
  · rw [offerTick_not_running hrun, offerTick_not_running (s := s.withDraws c n) hrun]
    exact ⟨c, n, rfl, hh⟩

/-- The commuting diagram of one step. -/
theorem step_withDraws {s t : State} {c n : Nat} (h : step s = .next t) (hs : s.clockSelectOk) (hh : s.Hides c n) :
    ∃ c' n', step (s.withDraws c n) = .next (t.withDraws c' n') ∧ t.Hides c' n' := by
  rcases step_cases h with ⟨hnil, rfl⟩ | ⟨w, rest, hcons, hexec⟩ | ⟨rest, hcons, rfl⟩ | ⟨d, m, rest, hcons, rfl⟩
  · exact ⟨c, n, step_of_nil hnil, hh⟩
  · rw [step_of_command (s := s.withDraws c n) hcons]
    exact exec_withDraws hexec ⟨hh.compareReg, hh.cnt⟩
  · obtain ⟨c', n', htick, hh'⟩ :=
      offerTick_withDraws (s := { s with schedule := rest }) hs ⟨hh.compareReg, hh.cnt⟩
    exact ⟨c', n', (step_of_tick (s := s.withDraws c n) hcons).trans (congrArg _ htick), hh'⟩
  · exact ⟨_, _, step_of_powerOn (s := s.withDraws c n) hcons, State.hides_self _⟩

/-- Two blocks that differ in hidden values of `COMPARE` and `CNT` alone. -/
def DifferInHidden (s s' : State) : Prop :=
  s.clockSelectOk ∧ ∃ c n, s' = s.withDraws c n ∧ s.Hides c n

theorem steps_keep_differInHidden {s s' : State} (hs : DifferInHidden s s') :
    ∃ t t', step s = .next t ∧ step s' = .next t' ∧ DifferInHidden t t' := by
  obtain ⟨hclock, c, n, rfl, hh⟩ := hs
  obtain ⟨t, ht⟩ := exists_step_next s
  obtain ⟨c', n', ht', hh'⟩ := step_withDraws ht hclock hh
  exact ⟨t, _, ht, ht', step_keeps_clockSelectOk ht hclock, c', n', rfl, hh'⟩

/-- After power-on reset both registers are hidden, whatever they were drawn to be. -/
theorem powerOn_differInHidden (p : Params) (c n c' n' : Nat) (events : List Event) :
    DifferInHidden { State.powerOn p c n with schedule := events } { State.powerOn p c' n' with schedule := events } :=
  ⟨powerOn_clockSelectOk p c n, _, _, rfl, fun hsaved => absurd rfl hsaved, nofun⟩

/-- Settles O53: two blocks that differ in hidden values alone stay so, and while they run nothing is hidden. -/
theorem powerOnDrawsNeverObserved : Obligations.PowerOnDrawsNeverObserved := by
  intro p c n c' n' events k
  obtain ⟨t, t', ht, ht', hclock, d, m, rfl, hh⟩ :=
    reaches_of_steps_keep (fun _ _ => steps_keep_differInHidden) k (powerOn_differInHidden p c n c' n' events)
  exact ⟨t, _, ht, ht', rfl, fun hrun => (hh.withDraws_of_running hclock hrun).symm⟩

end Sys2Proof.Machine

/-! ### Proofs: who writes each register (10_state.md R21 to R29) -/

namespace Sys2Proof.Machine

theorem needsInit_iff (i : Instr) :
    needsInit i = true ↔ (∃ period, i = .setperiod period) ∨ i = .start ∨ i = .stop := by
  cases i <;> simp [needsInit]

theorem State.nextCommand_of_cons {s : State} {w : Nat} {rest : List Event} (hs : s.schedule = .command w :: rest) :
    s.nextCommand = some (decode s.params.argWidth w) := by
  rw [State.nextCommand, hs]

/-- Settles O41: a command is one of `exec_cases`, each of which writes the registers its rule names; a TICK writes `CNT`. -/
theorem registerWriters : Obligations.RegisterWriters := by
  intro s t h hreset
  rcases step_cases h with ⟨-, rfl⟩ | ⟨w, rest, hcons, hexec⟩ | ⟨rest, hcons, rfl⟩ | ⟨c, n, rest, hcons, rfl⟩
  · simp
  · rw [State.nextCommand_of_cons hcons]
    generalize decode s.params.argWidth w = i at hexec
    rcases exec_cases hexec with ⟨rfl, rfl⟩ | ⟨hneeds, hm, rfl⟩ | ⟨_, _, rfl, -, -, rfl⟩ | ⟨rfl, -, rfl⟩ |
      ⟨rfl, -, rfl⟩ | ⟨rfl, rfl⟩ | ⟨_, rfl, rfl⟩ | ⟨rfl, rfl⟩ | ⟨rfl, rfl⟩ | ⟨_, rfl, rfl⟩
    · simp
    · have huninit := (controllerState_eq_uninitialized_iff s).mpr hm
      simpa [huninit] using fun _ => (needsInit_iff i).mp hneeds
    all_goals simp
  · by_cases hrun : controllerState { s with schedule := rest } = .running
    · rw [offerTick_running hrun, tick_eq]
      have hticks : s.schedule.head? = some .tick ∧ controllerState s = .running := ⟨by rw [hcons]; rfl, hrun⟩
      simp [hticks]
    · rw [offerTick_not_running hrun]
      simp
  · simp [State.nextIsPowerOn, hcons, Event.isPowerOn] at hreset

end Sys2Proof.Machine

/-! ### Proofs: repeated commands (20_memory.md R42) -/

namespace Sys2Proof.Machine

/-- The claim of R42 about one command in one state: performed again it leaves every register as it left it. -/
def Repeatable (i : Instr) (s : State) : Prop :=
  ∃ t u, exec i s = .next t ∧ exec i t = .next u ∧ u.registers = t.registers

@[simp] theorem respond_registers (v : Response) (s : State) : (respond v s).registers = s.registers := rfl

/-! #### SETPERIOD, START and STOP before and after INIT (41_timer_controller.md R72 to R74, 60_exceptions.md R96) -/

/-- A command that needs INIT only records its fault before it. -/
theorem exec_of_normal {i : Instr} {s : State} (hi : needsInit i = true) (hm : s.mode = .normal) :
    exec i s = .next (commandBeforeInit s) := by
  have huninit := (controllerState_eq_uninitialized_iff s).mpr hm
  rcases (needsInit_iff i).mp hi with ⟨period, rfl⟩ | rfl | rfl
  · exact if_pos huninit
  · exact if_pos huninit
  · exact if_pos huninit

theorem exec_setperiod_of_ctc (period : Nat) {s : State} (hm : s.mode = .ctc) :
    exec (.setperiod period) s = .next (respond .ack (storePeriod (resolve s.params period) s)) :=
  if_neg ((controllerState_ne_uninitialized_iff s).mpr hm)

/-- The clock select after START: the remembered selector, if there is one. -/
def resumedSelect (s : State) : Selector := if s.savedCs = disabled then s.cs else s.savedCs

theorem exec_start_of_ctc {s : State} (hm : s.mode = .ctc) :
    exec .start s = .next (respond .ack (setClockSelect (resumedSelect s) s)) := by
  rw [exec, execStart, if_neg ((controllerState_ne_uninitialized_iff s).mpr hm), resumedSelect]
  by_cases hsaved : s.savedCs = disabled
  · rw [if_pos hsaved, if_pos hsaved]
    rfl
  · rw [if_neg hsaved, if_neg hsaved]

/-- START copies what it does not write, so a second START copies the same. -/
theorem resumedSelect_setClockSelect_resumedSelect (s : State) :
    resumedSelect (setClockSelect (resumedSelect s) s) = resumedSelect s := by
  by_cases hsaved : s.savedCs = disabled <;> simp [resumedSelect, hsaved]

/-- Before INIT the fault bit is set once and for all; after INIT all rests on the command's update `f`. -/
theorem repeatable_of_needsInit {i : Instr} (f : State → State) (hi : needsInit i = true)
    (hexec : ∀ s, s.mode = .ctc → exec i s = .next (respond .ack (f s)))
    (hmode : ∀ s, (f s).mode = s.mode)
    (htwice : ∀ s, (f (respond .ack (f s))).registers = (f s).registers) (s : State) : Repeatable i s := by
  cases hm : s.mode with
  | normal => exact ⟨_, _, exec_of_normal hi hm, exec_of_normal hi hm, rfl⟩
  | ctc => exact ⟨_, _, hexec s hm, hexec _ ((hmode s).trans hm), htwice s⟩

theorem repeatable_setperiod (period : Nat) (s : State) : Repeatable (.setperiod period) s :=
  repeatable_of_needsInit (fun s => storePeriod (resolve s.params period) s) rfl
    (fun _ => exec_setperiod_of_ctc period) (fun s => by rw [storePeriod_eq])
    (fun s => by simp only [storePeriod_eq]; rfl) s

theorem repeatable_start (s : State) : Repeatable .start s :=
  repeatable_of_needsInit (fun s => setClockSelect (resumedSelect s) s) rfl
    (fun _ => exec_start_of_ctc) (fun _ => rfl)
    (fun s => congrArg (fun c => (setClockSelect c s).registers) (resumedSelect_setClockSelect_resumedSelect s)) s

theorem repeatable_stop (s : State) : Repeatable .stop s :=
  repeatable_of_needsInit (setClockSelect disabled) rfl (fun _ => exec_stop_of_ctc) (fun _ => rfl) (fun _ => rfl) s

/-! #### The other commands -/

/-- The first ATTACH delivers a latched match and clears it; the second finds none (42_interrupt_dispatch.md R78). -/
theorem repeatable_attach (handler : Token) (s : State) : Repeatable (.attach handler) s := by
  refine ⟨_, _, rfl, rfl, ?_⟩
  rw [deliverPending_eq, deliverPending_eq]
  rfl

theorem exec_repeatable (i : Instr) (s : State) : Repeatable i s := by
  cases i with
  | setperiod period => exact repeatable_setperiod period s
  | start => exact repeatable_start s
  | stop => exact repeatable_stop s
  | attach handler => exact repeatable_attach handler s
  | init => exact ⟨_, _, rfl, rfl, rfl⟩
  | reset => exact ⟨_, _, rfl, rfl, rfl⟩
  | detach => exact ⟨_, _, rfl, rfl, rfl⟩
  | getcb => exact ⟨_, _, rfl, rfl, rfl⟩
  | reserved op => exact ⟨_, _, rfl, rfl, rfl⟩

/-- Settles O40: GETCB only responds, and each command writes constants or copies of what it leaves alone. -/
theorem commandsIdempotent : Obligations.CommandsIdempotent :=
  ⟨fun s => ⟨_, rfl, respond_registers (.token s.handler) s⟩, exec_repeatable⟩

end Sys2Proof.Machine

/-! ### Proofs: one event per step, and the command of a word (20_memory.md R40, R41; 30_encoding.md R56) -/

namespace Sys2Proof

/-- The opcodes `0x8 .. 0xF` are reserved (R50). -/
theorem decodeFields_reserved {op : Opcode} (hop : 8 ≤ op.toNat) (arg : Nat) : decodeFields op arg = .reserved op := by
  unfold decodeFields
  split
  case h_9 => rfl
  all_goals omega

/-- A well-formed command is the one of its own opcode and operand (R48, R51, R52). -/
theorem decodeFields_opcode_arg {n : Nat} {i : Instr} (h : i.wf n = true) : decodeFields i.opcode i.arg = i := by
  cases i with
  | attach handler => exact congrArg Instr.attach ((BitVec.ofNat_toNat 32 handler).trans (BitVec.setWidth_eq handler))
  | reserved op => exact decodeFields_reserved (of_decide_eq_true h) 0
  | _ => rfl

theorem decode_encode_of_wf {n : Nat} {i : Instr} (h : i.wf n = true) : decode n (encode n i) = i :=
  (decode_encode h).trans (decodeFields_opcode_arg h)

/-- A command word of the opcode table has 36 bits, so all of it lies in the table's 40 (R47). -/
theorem tableBits_encode (i : Instr) : tableBits 40 (encode 32 i) = encode 32 i :=
  Nat.mod_eq_of_lt ((joinFields_lt 32 i.opcode i.arg).trans (by decide))

end Sys2Proof

namespace Sys2Proof.Machine

/-- The opcode table's word of a command is, on a port with any `ARG_W`, that port's own word of it. -/
theorem tableCommand_encode {i : Instr} (h : i.wf 32 = true) (n : Nat) :
    tableCommand n 40 (encode 32 i) = encode n i := by
  rw [tableCommand, tableBits_encode, encode, opField_joinFields, argField_joinFields,
    Nat.mod_eq_of_lt (Instr.arg_lt h), encode]

/-- A command word issued at the port is performed next. -/
theorem step_issueCommand (w : Nat) (s : State) : step (issueCommand w s) = exec (decode s.params.argWidth w) s := by
  rw [step, fetch_issueCommand]

theorem step_issueCommand_encode {i : Instr} {s : State} (h : i.wf s.params.argWidth = true) :
    step (issueCommand (encode s.params.argWidth i) s) = exec i s := by
  rw [step_issueCommand, decode_encode_of_wf h]

/-- Settles O51: a fetched word is decoded and performed, and the word of a command decodes to it. -/
theorem stepRunsDecodedCommand : Obligations.StepRunsDecodedCommand := by
  refine ⟨fun s w rest => step_of_command, fun s i => step_issueCommand_encode, fun s i h32 h => ?_⟩
  rw [State.withFetchWord, tableCommand_encode h32, step_issueCommand_encode h]

@[simp] theorem tick_schedule (s : State) : (tick s).schedule = s.schedule := by rw [tick_eq]

/-- An offered clock edge takes no further event and leaves the parameters. -/
theorem offerTick_schedule_params (s : State) :
    (offerTick s).schedule = s.schedule ∧ (offerTick s).params = s.params := by
  by_cases hrun : controllerState s = .running
  · rw [offerTick_running hrun]
    exact ⟨tick_schedule s, tick_params s⟩
  · rw [offerTick_not_running hrun]
    exact ⟨rfl, rfl⟩

/-- Settles O52: the event is taken off before it is performed, and no event touches the rest of the schedule. -/
theorem everyStepTakesAtMostFirstEvent : Obligations.EveryStepTakesAtMostFirstEvent := by
  intro s
  cases hs : s.schedule with
  | nil => exact ⟨s, step_of_nil hs, hs, rfl⟩
  | cons e rest =>
    cases e with
    | command w =>
      obtain ⟨t, ht, hkeep⟩ := exec_answers_next (decode s.params.argWidth w) { s with schedule := rest }
      exact ⟨t, (step_of_command hs).trans ht, hkeep⟩
    | tick => exact ⟨_, step_of_tick hs, offerTick_schedule_params _⟩
    | powerOn c n => exact ⟨_, step_of_powerOn hs, rfl, rfl⟩

end Sys2Proof.Machine

/-! ### Proofs: command words and the opcode table (30_encoding.md R47 to R52, R56, R58) -/

namespace Sys2Proof

theorem encode_lt (n : Nat) (i : Instr) : encode n i < 2 ^ (n + 4) := joinFields_lt n i.opcode i.arg

/-- The word of a well-formed command, read back through the opcode table's 40 bits. -/
theorem decodeTableWord_encode {i : Instr} (h : i.wf 32 = true) : decodeTableWord 40 (encode 32 i) = some i := by
  rw [decodeTableWord, tableBits_encode, decodeNat, if_pos (encode_lt 32 i), decode_encode_of_wf h]
  rfl

/-- Settles O3: the two fields of the word are the opcode and the operand, and these two determine the command. -/
theorem decodeOfEncode : Obligations.DecodeOfEncode :=
  ⟨fun n i h => ⟨decode_encode_of_wf h, encode_lt n i⟩, fun _ => decodeTableWord_encode⟩

/-! #### What the decoder keeps of a word -/

/-- A word of `n + 4` bits as the sum of its two fields. -/
theorem eq_opField_mul_add_argField {n w : Nat} (hw : w < 2 ^ (n + 4)) :
    w = (opField n w).toNat * 2 ^ n + argField n w := by
  have h := joinFields_fields hw
  rw [joinFields, Nat.mod_eq_of_lt (argField_lt n w)] at h
  exact h.symm

theorem decode_of_opField {n w : Nat} {op : Opcode} (h : opField n w = op) :
    decode n w = decodeFields op (argField n w) := by
  rw [decode, h]

/-- Settles O2: the word is its fields joined, and the opcode selects the row of R48. -/
theorem opFieldSelectsInstruction : Obligations.OpFieldSelectsInstruction :=
  ⟨fun n w hw => ⟨eq_opField_mul_add_argField hw, argField_lt n w⟩, fun n w =>
    ⟨decode_of_opField, decode_of_opField, decode_of_opField, decode_of_opField, decode_of_opField,
      fun h => ⟨Machine.tokenOf (argField n w), decode_of_opField h, BitVec.toNat_ofNat _ 32⟩,
      decode_of_opField, decode_of_opField, fun h => decodeFields_reserved h (argField n w)⟩⟩

/-- The rows of R48: one opcode per command, and the reserved ones. -/
theorem Opcode.eq_or_reserved (op : Opcode) :
    op = 0x0#4 ∨ op = 0x1#4 ∨ op = 0x2#4 ∨ op = 0x3#4 ∨ op = 0x4#4 ∨ op = 0x5#4 ∨ op = 0x6#4 ∨ op = 0x7#4 ∨
      8 ≤ op.toNat := by
  revert op
  decide

/-- What the decoder keeps of `ARG`: the period, the token's 32 bits, or nothing (R49 to R52). -/
def keptArg (op : Opcode) (arg : Nat) : Nat :=
  if op = 0x1#4 then arg else if op = 0x5#4 then arg % 2 ^ 32 else 0

theorem keptArg_reserved {op : Opcode} (hop : 8 ≤ op.toNat) (arg : Nat) : keptArg op arg = 0 := by
  have h1 : op ≠ 0x1#4 := by
    rintro rfl
    exact absurd hop (by decide)
  have h5 : op ≠ 0x5#4 := by
    rintro rfl
    exact absurd hop (by decide)
  rw [keptArg, if_neg h1, if_neg h5]

/-- A decoded command has the opcode it was decoded from and what the decoder keeps of `ARG`. -/
theorem decodeFields_opcode_and_arg (op : Opcode) (arg : Nat) :
    (decodeFields op arg).opcode = op ∧ (decodeFields op arg).arg = keptArg op arg := by
  rcases op.eq_or_reserved with rfl | rfl | rfl | rfl | rfl | rfl | rfl | rfl | hop
  on_goal 9 =>
    rw [decodeFields_reserved hop, keptArg_reserved hop]
    exact ⟨rfl, rfl⟩
  -- ATTACH, which cuts its argument down to a token
  on_goal 6 => exact ⟨rfl, BitVec.toNat_ofNat arg 32⟩
  all_goals exact ⟨rfl, rfl⟩

/-- Two words of one opcode that decode alike agree in what the decoder keeps. -/
theorem keptArg_eq_of_decodeFields_eq {op : Opcode} {a b : Nat} (h : decodeFields op a = decodeFields op b) :
    keptArg op a = keptArg op b := by
  rw [← (decodeFields_opcode_and_arg op a).2, h, (decodeFields_opcode_and_arg op b).2]

/-- Every opcode and argument stand for a well-formed command (R56). -/
theorem decodeFields_wf (op : Opcode) {n arg : Nat} (harg : arg < 2 ^ n) : (decodeFields op arg).wf n = true := by
  rcases op.eq_or_reserved with rfl | rfl | rfl | rfl | rfl | rfl | rfl | rfl | hop
  on_goal 9 =>
    rw [decodeFields_reserved hop]
    exact decide_eq_true hop
  -- ATTACH and SETPERIOD, the two with an operand
  on_goal 6 =>
    have hle : (Machine.tokenOf arg).toNat ≤ arg := (BitVec.toNat_ofNat arg 32).trans_le (Nat.mod_le _ _)
    exact decide_eq_true (hle.trans_lt harg)
  on_goal 2 => exact decide_eq_true harg
  all_goals rfl

theorem encode_decode (n w : Nat) :
    encode n (decode n w) = joinFields n (opField n w) (keptArg (opField n w) (argField n w)) := by
  obtain ⟨hop, harg⟩ := decodeFields_opcode_and_arg (opField n w) (argField n w)
  rw [encode, decode, hop, harg]

/-- An argument of at most 32 bits fits in the token. -/
theorem argField_mod_token {n : Nat} (hn : n ≤ 32) (w : Nat) : argField n w % 2 ^ 32 = argField n w :=
  Nat.mod_eq_of_lt ((argField_lt n w).trans_le (Nat.pow_le_pow_right (by decide) hn))

/-- Settles O4: encoding joins the opcode with what the decoder kept of `ARG`. -/
theorem encodeOfDecodeClearsIgnoredBits : Obligations.EncodeOfDecodeClearsIgnoredBits := by
  intro n w hw
  refine ⟨decodeFields_wf _ (argField_lt n w), ?_⟩
  have hfields := joinFields_fields hw
  rw [encode_decode]
  by_cases h1 : opField n w = 0x1#4
  · rw [if_pos (.inl h1), keptArg, if_pos h1, hfields]
  by_cases h5 : opField n w = 0x5#4
  · rw [keptArg, if_neg h1, if_pos h5]
    by_cases hn : n ≤ 32
    · rw [if_pos (.inr ⟨h5, hn⟩), argField_mod_token hn, hfields]
    · rw [if_neg (by simp [h1, hn]), if_pos h5, h5]
  · rw [keptArg, if_neg h1, if_neg h5, if_neg (by simp [h1, h5]), if_neg h5]

/-! #### Ignored bits of the argument (R49) -/

/-- The opcodes of INIT, START, STOP, RESET, DETACH and GETCB ignore their argument. -/
theorem decodeFields_of_ignored {op : Opcode} (hop : op ∈ [0x0#4, 0x2#4, 0x3#4, 0x4#4, 0x6#4, 0x7#4]) (a b : Nat) :
    decodeFields op a = decodeFields op b := by
  simp only [List.mem_cons, List.not_mem_nil, or_false] at hop
  rcases hop with rfl | rfl | rfl | rfl | rfl | rfl <;> rfl

theorem arg_of_operandless {i : Instr} (hi : i ∈ [Instr.init, .start, .stop, .reset, .detach, .getcb]) : i.arg = 0 := by
  simp only [List.mem_cons, List.not_mem_nil, or_false] at hi
  rcases hi with rfl | rfl | rfl | rfl | rfl | rfl <;> rfl

/-- SETPERIOD and ATTACH keep an argument of 32 bits whole. -/
theorem keptArg_of_operand {op : Opcode} (hop : op ∈ [0x1#4, 0x5#4]) {a : Nat} (ha : a < 2 ^ 32) :
    keptArg op a = a := by
  simp only [List.mem_cons, List.not_mem_nil, or_false] at hop
  rcases hop with rfl | rfl
  · rfl
  · exact Nat.mod_eq_of_lt ha

/-- Two arguments that fit in the field, and that the decoder keeps whole, are equal when their words decode alike. -/
theorem arg_eq_of_decode_eq {n : Nat} {op : Opcode} {a b : Nat} (ha : a < 2 ^ n) (hb : b < 2 ^ n)
    (hkeepa : keptArg op a = a) (hkeepb : keptArg op b = b)
    (h : decode n (joinFields n op a) = decode n (joinFields n op b)) : a = b := by
  rw [decode_joinFields, decode_joinFields, Nat.mod_eq_of_lt ha, Nat.mod_eq_of_lt hb] at h
  rw [← hkeepa, keptArg_eq_of_decodeFields_eq h, hkeepb]

open Machine in
/-- Settles O5: the ignored bits are gone after decoding, and the others stand in the decoded operand. -/
theorem ignoredArgumentBits : Obligations.IgnoredArgumentBits := by
  refine ⟨fun op a s hop => ?_, fun n i hi => ?_, fun op a b hop ha hb => ?_, fun n a b ha hb => ?_⟩
  · rw [step_issueCommand, step_issueCommand, decode_joinFields, decode_joinFields]
    exact congrArg (exec · s) (decodeFields_of_ignored hop _ _)
  · rw [encode, argField_joinFields, arg_of_operandless hi, Nat.zero_mod]
  · exact arg_eq_of_decode_eq ha hb (keptArg_of_operand hop ha) (keptArg_of_operand hop hb)
  · exact arg_eq_of_decode_eq ha hb rfl rfl

/-! #### The rows of the opcode table -/

/-- The table's word `{OP, ARG}` as two bit vectors side by side is the word of the joined fields (R47). -/
theorem toNat_append_eq_joinFields (op : Opcode) (arg : BitVec 32) :
    (op ++ arg).toNat = joinFields 32 op arg.toNat := by
  rw [BitVec.toNat_append, ← Nat.shiftLeft_add_eq_or_of_lt arg.isLt, Nat.shiftLeft_eq, joinFields,
    Nat.mod_eq_of_lt arg.isLt]

theorem TableWord.eq_append (w : TableWord) : w = opField 32 w.toNat ++ BitVec.ofNat 32 w.toNat := by
  have hlow : (BitVec.ofNat 32 w.toNat).toNat = argField 32 w.toNat := BitVec.toNat_ofNat _ 32
  exact BitVec.eq_of_toNat_eq (by rw [toNat_append_eq_joinFields, hlow, joinFields_fields w.isLt])

/-- Every row's mask lies within the opcode field. -/
theorem opcodeTable_mask {r : OpcodeRow} (hr : r ∈ opcodeTable) : ∃ m : Opcode, r.mask = m ++ 0#32 := by
  revert r
  decide

/-- So a row covers a word whatever its argument. -/
theorem covers_append {r : OpcodeRow} (hr : r ∈ opcodeTable) (op : Opcode) (arg : BitVec 32) :
    r.covers (op ++ arg) = r.covers (op ++ 0#32) := by
  obtain ⟨m, hm⟩ := opcodeTable_mask hr
  rw [OpcodeRow.covers, OpcodeRow.covers, hm, BitVec.and_append, BitVec.and_append, BitVec.and_zero, BitVec.and_zero]

theorem mnemonic_decodeFields (op : Opcode) (a b : Nat) :
    (decodeFields op a).mnemonic = (decodeFields op b).mnemonic := by
  rcases op.eq_or_reserved with rfl | rfl | rfl | rfl | rfl | rfl | rfl | rfl | hop
  on_goal 9 => rw [decodeFields_reserved hop, decodeFields_reserved hop]
  all_goals rfl

/-- The claim for the sixteen words with `ARG = 0`. -/
theorem rows_of_opcode (op : Opcode) :
    (opcodeTable.filter (fun r => r.covers (op ++ 0#32))).map OpcodeRow.mnemonic = [(decodeFields op 0).mnemonic] := by
  revert op
  decide

/-- Settles O6: neither the rows that cover a word nor the mnemonic it decodes to depend on `ARG`, which leaves sixteen
words. -/
theorem everyWordHasOneTableRow : Obligations.EveryWordHasOneTableRow := by
  intro w
  have hcovers : ∀ r ∈ opcodeTable, r.covers w = r.covers (opField 32 w.toNat ++ 0#32) := fun r hr => by
    conv_lhs => rw [TableWord.eq_append w]
    exact covers_append hr _ _
  rw [List.filter_congr hcovers, rows_of_opcode, decode, mnemonic_decodeFields _ 0 (argField 32 w.toNat)]

end Sys2Proof

namespace Sys2Proof.Machine

/-- Settles O37: the word decodes to the reserved command of its opcode, which sets the bit. -/
theorem reservedOpcodeFault : Obligations.ReservedOpcodeFault := by
  refine ⟨fun op s => rfl, fun op arg s hop => ?_⟩
  rw [step_issueCommand, decode_joinFields, decodeFields_reserved hop]
  rfl

/-! ### Proofs: the assembler (30_encoding.md R58) -/

/-- An operand that is a number is taken when it fits. -/
theorem parseOperand_of_parseNumber {t : List Char} {n : Nat} (h : parseNumber t = some n) (bits : Nat) :
    parseOperand bits t = if n < 2 ^ bits then some n else none := by
  rw [parseOperand, h, Option.bind_some]

theorem upper_of_small {c : Char} (h : 97 ≤ c.toNat ∧ c.toNat ≤ 122) : upper c = Char.ofNat (c.toNat - 32) := if_pos h

theorem upper_of_not_small {c : Char} (h : ¬(97 ≤ c.toNat ∧ c.toNat ≤ 122)) : upper c = c := if_neg h

/-- A capital stands 32 below its small letter, and is none itself. -/
theorem upper_upper (c : Char) : upper (upper c) = upper c := by
  by_cases h : 97 ≤ c.toNat ∧ c.toNat ≤ 122
  · have hcapital : (upper c).toNat = c.toNat - 32 := by
      have hvalid : (c.toNat - 32).isValidChar := .inl (by omega)
      rw [upper_of_small h, Char.toNat_ofNat, if_pos hvalid]
    exact upper_of_not_small (by omega)
  · rw [upper_of_not_small h, upper_of_not_small h]

theorem assembleWords_map_upper (argWidth : Nat) (m : List Char) (operands : List (List Char)) :
    assembleWords argWidth (m.map upper :: operands) = assembleWords argWidth (m :: operands) := by
  have hupper : upper ∘ upper = upper := funext upper_upper
  rw [assembleWords, assembleWords, List.map_map, hupper]

theorem assembleWords_setperiod (argWidth : Nat) (t : List Char) :
    assembleWords argWidth [['S', 'E', 'T', 'P', 'E', 'R', 'I', 'O', 'D'], t] =
      (parseOperand argWidth t).map .setperiod := rfl

theorem assembleWords_attach (argWidth : Nat) (t : List Char) :
    assembleWords argWidth [['A', 'T', 'T', 'A', 'C', 'H'], t] =
      (parseOperand 32 t).map (fun n => .attach (BitVec.ofNat 32 n)) := rfl

/-- Settles O7: an operand is a number that fits, and a mnemonic is compared in capitals. -/
theorem assemblerOperands : Obligations.AssemblerOperands := by
  refine ⟨fun argWidth t n h => ⟨?_, ?_⟩, fun _ => ⟨rfl, rfl, rfl, rfl, rfl, rfl⟩, assembleWords_map_upper⟩
  · rw [assembleWords_setperiod, parseOperand_of_parseNumber h]
    split <;> rfl
  · rw [assembleWords_attach, parseOperand_of_parseNumber h]
    split <;> rfl

/-! ### Proofs: selector codes (30_encoding.md R53, R54) -/

/-- Code `i + 1` selects `DIVS[i]`, and it is one of the eight. -/
theorem sel_of_getElem? {p : Params} (h : p.wf = true) {i d : Nat} (hd : p.divs[i]? = some d) :
    sel p d = BitVec.ofNat 3 (i + 1) ∧ (sel p d).toNat = i + 1 ∧ divisorOf p (sel p d) = some d := by
  have hmem : d ∈ p.divs := List.mem_of_getElem? hd
  have hidx : p.divs.idxOf d = i := idxOf_of_getElem? h hd
  exact ⟨by rw [sel, hidx], by rw [sel_toNat h hmem, hidx], divisorOf_sel h hmem⟩

theorem divisorOf_disabled (p : Params) : divisorOf p disabled = none := if_pos rfl

/-- A code above `NDIV` points beyond the table. -/
theorem divisorOf_of_ndiv_lt {p : Params} {s : Selector} (hs : p.ndiv < s.toNat) : divisorOf p s = none := by
  have hne : s ≠ disabled := by
    rintro rfl
    exact Nat.not_lt_zero _ hs
  rw [divisorOf, if_neg hne]
  exact List.getElem?_eq_none (Nat.le_sub_one_of_lt hs)

/-- Settles O8: a divisor's code is one more than its place in the table. -/
theorem selectorCodes : Obligations.SelectorCodes :=
  ⟨fun p h => ⟨divisorOf_disabled p, fun _ _ => sel_of_getElem? h, fun _ => divisorOf_of_ndiv_lt⟩, by decide⟩

/-- Every resolved selector is `DISABLED` or one of the table. -/
theorem resolve_selector_cases {p : Params} (h : p.wf = true) (period : Nat) :
    (resolve p period).1 = disabled ∨ ∃ d ∈ p.divs, (resolve p period).1 = sel p d := by
  rcases Nat.eq_zero_or_pos period with rfl | hp
  · exact .inl rfl
  · exact .inr (resolve_selector h hp)

/-- What R54 lets a step from `s` to `t` write to `CS` and `SAVED_CS`. -/
def WritesSelectorsOk (s t : State) : Prop :=
  (t.cs = s.cs ∨ t.cs = disabled ∨ t.cs = s.savedCs ∨ ∃ d ∈ s.params.divs, t.cs = sel s.params d) ∧
  (t.savedCs = s.savedCs ∨ t.savedCs = disabled ∨ ∃ d ∈ s.params.divs, t.savedCs = sel s.params d)

theorem exec_writesSelectorsOk {i : Instr} {s t : State} (hwf : s.params.wf = true) (h : exec i s = .next t) :
    WritesSelectorsOk s t := by
  rcases exec_selector_cases h with ⟨-, hcs, hsaved⟩ | ⟨hcs, hsaved⟩ | ⟨-, hcs, hsaved⟩ | ⟨period, -, hcs, hsaved⟩
  · exact ⟨.inl hcs, .inl hsaved⟩
  · exact ⟨.inr (.inl hcs), .inl hsaved⟩
  · exact ⟨.inr (.inr (.inl hcs)), .inl hsaved⟩
  · rw [WritesSelectorsOk, hcs, hsaved]
    have hcode := resolve_selector_cases hwf period
    exact ⟨.inr (hcode.imp_right .inr), .inr hcode⟩

theorem offerTick_selectors (s : State) : (offerTick s).cs = s.cs ∧ (offerTick s).savedCs = s.savedCs := by
  by_cases hrun : controllerState s = .running
  · rw [offerTick_running hrun, tick_eq]
    exact ⟨rfl, rfl⟩
  · rw [offerTick_not_running hrun]
    exact ⟨rfl, rfl⟩

theorem step_writesSelectorsOk {s t : State} (hwf : s.params.wf = true) (h : step s = .next t) :
    WritesSelectorsOk s t := by
  rcases step_cases h with ⟨-, rfl⟩ | ⟨w, rest, -, hexec⟩ | ⟨rest, -, rfl⟩ | ⟨c, n, rest, -, rfl⟩
  · exact ⟨.inl rfl, .inl rfl⟩
  · exact exec_writesSelectorsOk (s := { s with schedule := rest }) hwf hexec
  · exact (offerTick_selectors { s with schedule := rest }).imp .inl .inl
  · exact ⟨.inr (.inl rfl), .inr (.inl rfl)⟩

theorem step_params {s t : State} (h : step s = .next t) : t.params = s.params := by
  obtain ⟨u, hu, -, hp⟩ := everyStepTakesAtMostFirstEvent s
  cases h.symm.trans hu
  exact hp

/-- What R54 lets a step write is no code above `NDIV`, unless one stood there. -/
theorem selectorsOk_of_writesSelectorsOk {s t : State} (hwf : s.params.wf = true) (hp : t.params = s.params)
    (hs : s.selectorsOk) (hw : WritesSelectorsOk s t) : t.selectorsOk := by
  obtain ⟨hcsOk, hsavedOk⟩ := hs
  have hdisabled : (disabled : Selector).toNat ≤ s.params.ndiv := Nat.zero_le _
  obtain ⟨hcs, hsaved⟩ := hw
  rw [State.selectorsOk, hp]
  constructor
  · rcases hcs with hcs | hcs | hcs | ⟨d, hd, hcs⟩ <;> rw [hcs]
    exacts [hcsOk, hdisabled, hsavedOk, sel_toNat_le hwf hd]
  · rcases hsaved with hsaved | hsaved | ⟨d, hd, hsaved⟩ <;> rw [hsaved]
    exacts [hsavedOk, hdisabled, sel_toNat_le hwf hd]

/-- Settles O50: SETPERIOD alone writes a new code, a resolved one; the bound on the codes follows from what is written. -/
theorem reservedSelectorsNeverWritten : Obligations.ReservedSelectorsNeverWritten :=
  ⟨fun _ _ => step_writesSelectorsOk, fun _ _ hwf hs h =>
    selectorsOk_of_writesSelectorsOk hwf (step_params h) hs (step_writesSelectorsOk hwf h)⟩

/-! ### Proofs: the response to every command (30_encoding.md R57) -/

/-- A command that needs INIT answers `ack`, before it and after. -/
theorem expectedResponse_of_needsInit {i : Instr} (hi : needsInit i = true) (s : State) :
    expectedResponse i s = [.ack] := by
  rcases (needsInit_iff i).mp hi with ⟨period, rfl⟩ | rfl | rfl
  · rfl
  · rfl
  · rfl

theorem exec_responses {i : Instr} {s t : State} (h : exec i s = .next t) :
    t.responses = s.responses ++ expectedResponse i s := by
  rcases exec_cases h with ⟨rfl, rfl⟩ | ⟨hi, -, rfl⟩ | ⟨_, _, rfl, -, -, rfl⟩ | ⟨rfl, -, rfl⟩ | ⟨rfl, -, rfl⟩ |
    ⟨rfl, rfl⟩ | ⟨_, rfl, rfl⟩ | ⟨rfl, rfl⟩ | ⟨rfl, rfl⟩ | ⟨_, rfl, rfl⟩
  -- a reserved opcode, which has no response, and a command before INIT
  on_goal 10 => exact (List.append_nil s.responses).symm
  on_goal 2 => rw [expectedResponse_of_needsInit hi]
  all_goals rfl

/-- Settles O39: each command appends its response once, and before INIT a faulting one does nothing else but fault. -/
theorem commandResponses : Obligations.CommandResponses := by
  intro i s
  obtain ⟨t, ht, -, -⟩ := exec_answers_next i s
  refine ⟨t, ht, exec_responses ht, fun hi huninit => ?_⟩
  cases ht.symm.trans (exec_of_normal hi ((controllerState_eq_uninitialized_iff s).mp huninit))
  rfl

end Sys2Proof.Machine

/-! ### Proofs: the Period Resolver (40_period_resolver.md R61 to R70) -/

namespace Sys2Proof.Machine

/-! #### Counts (R62) -/

/-- R62: `counts` is the only number that is one below the ceiling of `period / d`. -/
theorem counts_eq_iff {period d c : Nat} (hp : 1 ≤ period) (hd : 1 ≤ d) :
    counts period d = c ↔ c * d < period ∧ period ≤ (c + 1) * d := by
  have hcounts := counts_add_one hp hd
  rw [← not_le, ← ceilDiv_le_iff hd, ← ceilDiv_le_iff hd]
  omega

/-- Settles O10: the ceiling minus one, and its value below the divisor and at a multiple of it. -/
theorem countsIsCeilingMinusOne : Obligations.CountsIsCeilingMinusOne := by
  intro period d hp hd
  obtain ⟨hlow, hhigh⟩ := (counts_eq_iff hp hd).mp rfl
  refine ⟨hlow, hhigh, fun hlt => (counts_eq_iff hp hd).mpr (by omega), ?_⟩
  rintro ⟨k, rfl⟩
  have hk : 1 ≤ k := Nat.pos_of_mul_pos_left hp
  rw [Nat.mul_div_cancel_left k hd, counts_eq_iff hp hd, Nat.sub_add_cancel hk, Nat.mul_comm d k]
  exact ⟨Nat.mul_lt_mul_of_pos_right (Nat.sub_one_lt_of_lt hk) hd, le_rfl⟩

/-! #### The first divisor that fits (R63, R67) -/

/-- A count does not fit exactly when the period is above `d * 2^W` (R64's derivation). -/
theorem maxCount_lt_counts_iff {p : Params} {period d : Nat} (hp : 1 ≤ period) (hd : 1 ≤ d) :
    p.maxCount < counts period d ↔ d * 2 ^ p.width < period := by
  rw [← not_le, counts_le_maxCount_iff hp hd, not_le]

/-- Settles O11: the search through the table stops at the first divisor that fits. -/
theorem resolvePicksFirstFit : Obligations.ResolvePicksFirstFit := by
  intro p period i d _ hp hd hfit hskip
  obtain ⟨hi, hget⟩ := List.getElem?_eq_some_iff.mp hd
  have hfind : p.divs.find? (fits p period) = some d := by
    refine List.find?_eq_some_iff_getElem.mpr ⟨decide_eq_true hfit, i, hi, hget, fun j hj => ?_⟩
    simpa [fits] using hskip j _ hj (List.getElem?_eq_getElem (hj.trans hi))
  rw [resolve, if_neg (Nat.ne_of_gt hp), hfind]

/-- R67 for periods that do not saturate: divisor `DIVS[i]` for the least `i` with `period <= DIVS[i] * 2^W`. -/
theorem resolve_of_least_index {p : Params} (h : p.wf = true) {period i d : Nat} (hp : 1 ≤ period)
    (hd : p.divs[i]? = some d) (hle : period ≤ d * 2 ^ p.width)
    (hskip : ∀ j e, j < i → p.divs[j]? = some e → e * 2 ^ p.width < period) :
    resolve p period = (BitVec.ofNat 3 (i + 1), counts period d) := by
  obtain ⟨hcode, -, -⟩ := sel_of_getElem? h hd
  have hone {j e : Nat} (he : p.divs[j]? = some e) : 1 ≤ e := Params.one_le_of_mem h (List.mem_of_getElem? he)
  rw [resolvePicksFirstFit p period i d h hp hd ((counts_le_maxCount_iff hp (hone hd)).mpr hle)
    fun j e hj he => (maxCount_lt_counts_iff hp (hone he)).mpr (hskip j e hj he), hcode]

/-- In a legal table a divisor is at most every later one. -/
theorem Params.getElem?_le {p : Params} (h : p.wf = true) {i j d e : Nat} (hij : j ≤ i)
    (he : p.divs[j]? = some e) (hd : p.divs[i]? = some d) : e ≤ d := by
  obtain ⟨hj, rfl⟩ := List.getElem?_eq_some_iff.mp he
  obtain ⟨hi, rfl⟩ := List.getElem?_eq_some_iff.mp hd
  rcases Nat.eq_or_lt_of_le hij with rfl | hlt
  · exact le_rfl
  · exact (List.pairwise_iff_getElem.mp (Params.divs_ascending h) j i hj hi hlt).le

/-- A period between the reaches of two neighbouring divisors takes the larger: the table ascends, so if the
smaller does not fit, none before it does. -/
theorem resolve_of_between {p : Params} (h : p.wf = true) {period i d e : Nat} (hd : p.divs[i]? = some d)
    (he : p.divs[i + 1]? = some e) (hlt : d * 2 ^ p.width < period) (hle : period ≤ e * 2 ^ p.width) :
    resolve p period = (BitVec.ofNat 3 (i + 2), counts period e) := by
  refine resolve_of_least_index h (Nat.one_le_of_lt hlt) he hle fun j f hj hf => ?_
  exact (Nat.mul_le_mul_right _ (Params.getElem?_le h (Nat.le_of_lt_succ hj) hf hd)).trans_lt hlt

/-! #### Saturation (R64, R69) -/

/-- What a period of at least 1 resolves to: within the reach of `DMAX` a divisor of the table with its count, above it
the saturated pair. -/
theorem resolve_cases_of_pos {p : Params} (h : p.wf = true) {period : Nat} (hp : 1 ≤ period) :
    (period ≤ p.dmax * 2 ^ p.width ∧ ∃ d ∈ p.divs, resolve p period = (sel p d, counts period d)) ∨
    (p.dmax * 2 ^ p.width < period ∧ resolve p period = (sel p p.dmax, p.maxCount)) := by
  rcases resolve_cases p period with ⟨h0, -⟩ | ⟨-, d, hd, -, hfit, hr⟩ | ⟨-, -, hnone, hr⟩
  · omega
  · have hle : period ≤ d * 2 ^ p.width := (counts_le_maxCount_iff hp (Params.one_le_of_mem h hd)).mp hfit
    exact .inl ⟨hle.trans (Nat.mul_le_mul_right _ (Params.le_dmax h hd)), d, hd, hr⟩
  · have hmem := Params.dmax_mem h
    exact .inr ⟨(maxCount_lt_counts_iff hp (Params.one_le_of_mem h hmem)).mp (hnone _ hmem), hr⟩

/-- Settles O12: `DMAX` reaches furthest, so that no divisor fits when it does not. -/
theorem resolveSaturates : Obligations.ResolveSaturates := by
  intro p period h hp
  have hmem := Params.dmax_mem h
  have hbound := maxCount_lt_counts_iff (p := p) hp (Params.one_le_of_mem h hmem)
  refine ⟨⟨fun hall => hall _ hmem, fun hmax d hd => ?_⟩, hbound, resolve_of_saturating h⟩
  rw [maxCount_lt_counts_iff hp (Params.one_le_of_mem h hd)]
  exact (Nat.mul_le_mul_right _ (Params.le_dmax h hd)).trans_lt (hbound.mp hmax)

/-- Settles O16: both periods saturate. -/
theorem saturationIsConstant : Obligations.SaturationIsConstant := by
  intro p a b h ha hb
  have hpair := resolve_of_saturating h ha
  exact ⟨hpair.trans (resolve_of_saturating h hb).symm, hpair⟩

/-! #### The selector and the table of the defaults (R65, R67) -/

theorem resolve_selector_eq_sel_find? (p : Params) {period : Nat} (hp : 1 ≤ period) :
    (resolve p period).1 = sel p ((p.divs.find? (fits p period)).getD p.dmax) := by
  rcases resolve_cases p period with ⟨h0, -⟩ | ⟨-, d, -, hfind, -, hr⟩ | ⟨-, hfind, -, hr⟩
  · omega
  · rw [hr, hfind, Option.getD_some]
  · rw [hr, hfind, Option.getD_none]

/-- Settles O13: the chosen divisor is one of the table, whose codes are neither `DISABLED` nor reserved. -/
theorem resolvedSelector : Obligations.ResolvedSelector := by
  refine fun p period h => ⟨resolve_compare_le p period, fun hp => ⟨resolve_selector_eq_sel_find? p hp, ?_⟩⟩
  obtain ⟨d, hd, hsel⟩ := resolve_selector h hp
  rw [hsel]
  exact ⟨sel_ne_disabled h hd, sel_toNat_le h hd, d, hd, divisorOf_sel h hd⟩

/-- The code of `DMAX`, the last divisor, is `NDIV` (30_encoding.md R53). -/
theorem sel_dmax {p : Params} (h : p.wf = true) : sel p p.dmax = BitVec.ofNat 3 p.ndiv := by
  have hlast : p.divs[p.ndiv - 1]? = some p.dmax := by
    rw [Params.dmax, List.getLastD_eq_getLast?, Params.ndiv, ← List.getLast?_eq_getElem?,
      List.getLast?_eq_some_getLast (Params.divs_ne_nil h), Option.getD_some]
  have hpos : 1 ≤ p.ndiv := List.length_pos_iff.mpr (Params.divs_ne_nil h)
  obtain ⟨hcode, -, -⟩ := sel_of_getElem? h hlast
  rw [hcode, Nat.sub_add_cancel hpos]

/-- Settles O14: the least index whose divisor reaches the period; each row of the default table lies between the
reaches of two neighbouring divisors. -/
theorem resolveClosedForm : Obligations.ResolveClosedForm := by
  refine ⟨fun p period i d h hp => resolve_of_least_index h hp, fun p period h hlt => ?_, fun period => ?_⟩
  · rw [resolve_of_saturating h hlt, sel_dmax h]
  · have hwf := Config.default_wf
    split_ifs with h0 h1 h2 h3 h4 h5
    · rw [h0]
      rfl
    · have hcounts : counts period 1 = period - 1 := (counts_eq_iff (by omega) le_rfl).mpr (by omega)
      rw [← hcounts]
      exact resolve_of_least_index hwf (Nat.pos_of_ne_zero h0) rfl h1 fun j _ hj => absurd hj (Nat.not_lt_zero j)
    · exact resolve_of_between hwf (i := 0) rfl rfl (not_le.mp h1) h2
    · exact resolve_of_between hwf (i := 1) rfl rfl (not_le.mp h2) h3
    · exact resolve_of_between hwf (i := 2) rfl rfl (not_le.mp h3) h4
    · exact resolve_of_between hwf (i := 3) rfl rfl (not_le.mp h4) h5
    · exact resolve_of_saturating hwf (not_le.mp h5)

/-! #### The realised period (R68) -/

theorem realisedPeriod_sel {p : Params} (h : p.wf = true) {d : Nat} (hd : d ∈ p.divs) (c : Nat) :
    realisedPeriod p (sel p d) c = some ((c + 1) * d) := by
  rw [realisedPeriod, divisorOf_sel h hd, Option.map_some]

/-- Settles O15: rounding up to whole prescaled ticks adds less than one of them, and saturation realises the reach of
`DMAX`. -/
theorem realisedPeriodBounds : Obligations.RealisedPeriodBounds := by
  intro p period h hp
  rcases resolve_cases_of_pos h hp with ⟨hle, d, hd, hr⟩ | ⟨hlt, hr⟩ <;> rw [hr]
  · obtain ⟨hlow, hhigh⟩ := (counts_eq_iff hp (Params.one_le_of_mem h hd)).mp rfl
    have hq : (counts period d + 1) * d = counts period d * d + d := Nat.succ_mul _ _
    exact ⟨d, _, divisorOf_sel h hd, realisedPeriod_sel h hd _, rfl, fun _ => ⟨hhigh, hq.trans_le (by omega)⟩,
      fun hgt => by omega⟩
  · have hmem := Params.dmax_mem h
    have hreach : (p.maxCount + 1) * p.dmax = p.dmax * 2 ^ p.width := by rw [maxCount_add_one, Nat.mul_comm]
    exact ⟨p.dmax, _, divisorOf_sel h hmem, realisedPeriod_sel h hmem _, rfl, fun hle => by omega,
      fun _ => ⟨hreach, hreach.trans_lt hlt⟩⟩

/-! #### The zero period, and SETPERIOD with any period (R61, R70) -/

/-- Settles O9: the first branch of `resolve`. -/
theorem resolveZero : Obligations.ResolveZero := fun _ => if_pos rfl

/-- Settles O17: after INIT a resolved pair of whatever period is stored, which writes no fault bit. -/
theorem everyPeriodAccepted : Obligations.EveryPeriodAccepted := by
  intro period s hinit
  refine ⟨_, exec_setperiod_of_ctc period ((controllerState_ne_uninitialized_iff s).mp hinit), ?_⟩
  rw [storePeriod_eq]
  exact ⟨rfl, rfl, rfl⟩

end Sys2Proof.Machine

/-! ### Proofs: the Timer Controller's commands (41_timer_controller.md R71 to R77) -/

namespace Sys2Proof.Machine

/-! #### The callback slot until the first ATTACH (R76; 10_state.md R27) -/

/-- No ATTACH stands in the schedule. -/
def State.noAttachScheduled (s : State) : Prop := ∀ e ∈ s.schedule, e.isAttach s.params.argWidth = false

/-- Only a command word at the head of the schedule is a next command. -/
theorem State.exists_word_of_nextCommand {s : State} {i : Instr} (h : s.nextCommand = some i) :
    ∃ w rest, s.schedule = .command w :: rest ∧ decode s.params.argWidth w = i := by
  unfold State.nextCommand at h
  split at h
  case h_1 w rest hcons => exact ⟨w, rest, hcons, Option.some.inj h⟩
  all_goals cases h

theorem State.noAttachScheduled.nextCommand_ne {s : State} (hs : s.noAttachScheduled) (h : Token) :
    s.nextCommand ≠ some (.attach h) := by
  intro hnext
  obtain ⟨w, rest, hcons, hdec⟩ := State.exists_word_of_nextCommand hnext
  have hw : (Event.command w).isAttach s.params.argWidth = false := hs _ (by simp [hcons])
  simp [Event.isAttach, hdec] at hw

theorem step_keeps_noAttachScheduled {s t : State} (h : step s = .next t) (hs : s.noAttachScheduled) :
    t.noAttachScheduled := by
  obtain ⟨u, hu, hsched, hp⟩ := everyStepTakesAtMostFirstEvent s
  cases h.symm.trans hu
  intro e he
  rw [hsched] at he
  rw [hp]
  exact hs e (List.mem_of_mem_tail he)

theorem exec_handler {i : Instr} {s t : State} (h : exec i s = .next t) :
    t.handler = s.handler ∨ i = .attach t.handler := by
  rcases exec_cases h with ⟨-, rfl⟩ | ⟨-, -, rfl⟩ | ⟨_, _, -, -, -, rfl⟩ | ⟨-, -, rfl⟩ | ⟨-, -, rfl⟩ |
    ⟨-, rfl⟩ | ⟨_, hi, rfl⟩ | ⟨-, rfl⟩ | ⟨-, rfl⟩ | ⟨_, -, rfl⟩
  -- ATTACH stands in place 7 of `exec_cases`.
  on_goal 7 => exact .inr hi
  all_goals exact .inl rfl

theorem offerTick_handler (s : State) : (offerTick s).handler = s.handler := by
  by_cases hrun : controllerState s = .running
  · rw [offerTick_running hrun, tick_eq]
  · rw [offerTick_not_running hrun]

/-- A step keeps the handler, or performs an ATTACH of the new one, or is a power-on reset, which clears it. -/
theorem step_handler {s t : State} (h : step s = .next t) :
    t.handler = s.handler ∨ s.nextCommand = some (.attach t.handler) ∨ (s.nextIsPowerOn = true ∧ t.handler = noop) := by
  rcases step_cases h with ⟨-, rfl⟩ | ⟨w, rest, hcons, hexec⟩ | ⟨rest, -, rfl⟩ | ⟨c, n, rest, hcons, rfl⟩
  · exact .inl rfl
  · rw [State.nextCommand_of_cons hcons, Option.some.injEq]
    exact (exec_handler hexec).imp_right .inl
  · exact .inl (offerTick_handler _)
  · exact .inr (.inr ⟨by rw [State.nextIsPowerOn, hcons]; rfl, rfl⟩)

theorem step_keeps_noop {s t : State} (h : step s = .next t) (hs : s.noAttachScheduled) (hnoop : s.handler = noop) :
    t.handler = noop := by
  rcases step_handler h with hkeep | hattach | ⟨-, hreset⟩
  · exact hkeep.trans hnoop
  · exact absurd hattach (hs.nextCommand_ne _)
  · exact hreset

/-- Settles O23: GETCB answers the slot, and without an ATTACH to come every step leaves `NOOP` there. -/
theorem getcbResult : Obligations.GetcbResult := by
  refine ⟨fun s => rfl, fun p c n events k hevents => ?_⟩
  have keeps (s : State) (hs : s.noAttachScheduled ∧ s.handler = noop) :
      ∃ t, step s = .next t ∧ t.noAttachScheduled ∧ t.handler = noop := by
    obtain ⟨hsched, hnoop⟩ := hs
    obtain ⟨t, ht⟩ := exists_step_next s
    exact ⟨t, ht, step_keeps_noAttachScheduled ht hsched, step_keeps_noop ht hsched hnoop⟩
  obtain ⟨t, ht, -, hnoop⟩ :=
    reaches_of_step_keeps keeps k (s := { State.powerOn p c n with schedule := events }) ⟨hevents, rfl⟩
  exact ⟨t, ht, by rw [← hnoop]; rfl⟩

/-! #### The transitions (R77) -/

/-- R61, R65: for legal parameters period 0 alone resolves to `DISABLED`. -/
theorem resolve_selector_eq_disabled_iff {p : Params} (h : p.wf = true) (period : Nat) :
    (resolve p period).1 = disabled ↔ period = 0 := by
  refine ⟨fun hd => ?_, ?_⟩
  · by_contra h0
    obtain ⟨d, hmem, hr⟩ := resolve_selector h (Nat.pos_of_ne_zero h0)
    exact sel_ne_disabled h hmem (hr.symm.trans hd)
  · rintro rfl
    rfl

theorem controllerState_of_ctc {s : State} (hm : s.mode = .ctc) :
    controllerState s = if s.cs = disabled then .stopped else .running := by
  rw [controllerState, hm]

/-- Before INIT, SETPERIOD, START and STOP stay in `Uninitialized`. -/
theorem controllerAfter_uninitialized {i : Instr} (hi : needsInit i = true) (saved : Selector) :
    controllerAfter .uninitialized saved i = .uninitialized := by
  rcases (needsInit_iff i).mp hi with ⟨period, rfl⟩ | rfl | rfl
  · rfl
  · rfl
  · rfl

/-- Without a remembered selector START is no transition. -/
theorem controllerAfter_start_of_disabled (c : ControllerState) : controllerAfter c disabled .start = c :=
  if_neg fun ⟨_, hsaved⟩ => hsaved rfl

/-- After INIT, START with a remembered selector starts the counter or leaves it running. -/
theorem controllerAfter_start {c : ControllerState} {saved : Selector} (hc : c ≠ .uninitialized)
    (hsaved : saved ≠ disabled) : controllerAfter c saved .start = .running := by
  cases c with
  | uninitialized => exact absurd rfl hc
  | stopped => exact if_pos ⟨rfl, hsaved⟩
  | running => rfl

theorem exec_controllerState {i : Instr} {s t : State} (hwf : s.params.wf = true) (h : exec i s = .next t) :
    controllerState t = controllerAfter (controllerState s) s.savedCs i := by
  rcases exec_cases h with ⟨rfl, rfl⟩ | ⟨hi, hm, rfl⟩ | ⟨period, _, rfl, hm, rfl, rfl⟩ | ⟨rfl, hm, rfl⟩ |
    ⟨rfl, hm, rfl⟩ | ⟨rfl, rfl⟩ | ⟨_, rfl, rfl⟩ | ⟨rfl, rfl⟩ | ⟨rfl, rfl⟩ | ⟨_, rfl, rfl⟩
  · rfl
  · rw [(controllerState_eq_uninitialized_iff s).mpr hm, controllerAfter_uninitialized hi]
    exact (controllerState_eq_uninitialized_iff _).mpr hm
  · rw [controllerAfter, if_neg ((controllerState_ne_uninitialized_iff s).mpr hm)]
    refine (controllerState_of_ctc ?_).trans (if_congr (resolve_selector_eq_disabled_iff hwf period) rfl rfl)
    exact hm
  · by_cases hsaved : s.savedCs = disabled
    · rw [hsaved, controllerAfter_start_of_disabled]
      exact controllerState_congr rfl rfl
    · rw [controllerAfter_start ((controllerState_ne_uninitialized_iff s).mpr hm) hsaved]
      exact (controllerState_eq_running_iff _).mpr ⟨hm, by simp [hsaved]⟩
  · rw [controllerAfter, if_neg ((controllerState_ne_uninitialized_iff s).mpr hm)]
    exact (controllerState_eq_stopped_iff _).mpr ⟨hm, rfl⟩
  all_goals rfl

/-- Before INIT a command that needs it only records its fault and answers (60_exceptions.md R96). -/
theorem exec_of_uninitialized {i : Instr} {s : State} (hi : needsInit i = true)
    (huninit : controllerState s = .uninitialized) :
    exec i s = .next { s with faultBeforeInit := true, responses := s.responses ++ [.ack] } :=
  exec_of_normal hi ((controllerState_eq_uninitialized_iff s).mp huninit)

/-- Settles O24: each way a command can end has its row of the table, and before INIT that end records the fault. -/
theorem controllerTransitions : Obligations.ControllerTransitions := by
  intro i s hwf
  obtain ⟨t, ht, -, -⟩ := exec_answers_next i s
  refine ⟨t, ht, exec_controllerState hwf ht, fun huninit hi => ?_⟩
  cases ht.symm.trans (exec_of_uninitialized hi huninit)
  rfl

/-! #### The whole result of each command (R71 to R75) -/

/-- Settles O18: INIT writes three constants, which a second INIT writes again. -/
theorem initResult : Obligations.InitResult := by
  rintro s _ rfl
  exact ⟨rfl, rfl, rfl⟩

/-- SETPERIOD once INIT has run (R72): both selectors and the compare value are those of the resolved pair. -/
theorem exec_setperiod_of_initialized (period : Nat) {s : State} (hinit : controllerState s ≠ .uninitialized) :
    exec (.setperiod period) s = .next { s with
      cs := (resolve s.params period).1, savedCs := (resolve s.params period).1
      compareReg := if (resolve s.params period).1 = disabled then 0 else (resolve s.params period).2
      responses := s.responses ++ [.ack] } := by
  rw [exec_setperiod_of_ctc period ((controllerState_ne_uninitialized_iff s).mp hinit), storePeriod_eq,
    resolve_compare_mod]
  rfl

/-- Settles O19: the stored pair is the resolved one, whose selector is `DISABLED` for period 0 alone. -/
theorem setperiodResult : Obligations.SetperiodResult := by
  intro period s
  refine ⟨exec_of_uninitialized rfl, fun hinit hd => ?_, fun hinit hd => ?_,
    fun hwf => resolve_selector_eq_disabled_iff hwf period⟩
  · rw [exec_setperiod_of_initialized period hinit, if_pos hd, hd]
  · rw [exec_setperiod_of_initialized period hinit, if_neg hd]

/-- START once INIT has run (R73). -/
theorem exec_start_of_initialized {s : State} (hinit : controllerState s ≠ .uninitialized) :
    exec .start s = .next { s with cs := resumedSelect s, responses := s.responses ++ [.ack] } :=
  exec_start_of_ctc ((controllerState_ne_uninitialized_iff s).mp hinit)

/-- While running, R32 makes the remembered selector the live one. -/
theorem savedCs_eq_cs_of_running {s : State} (hs : s.clockSelectOk) (hrun : controllerState s = .running) :
    s.savedCs = s.cs := by
  obtain ⟨-, hcs⟩ := (controllerState_eq_running_iff s).mp hrun
  obtain ⟨hd | hsaved, -⟩ := hs
  · exact absurd hd hcs
  · exact hsaved.symm

/-- Settles O20: START copies the remembered selector, which while running is the live one. -/
theorem startResult : Obligations.StartResult := by
  refine fun s => ⟨exec_of_uninitialized rfl, fun hinit hsaved => ?_, fun hinit hsaved => ?_, fun hrun hs => ?_⟩
  · rw [exec_start_of_initialized hinit, resumedSelect, if_pos hsaved]
  · rw [exec_start_of_initialized hinit, resumedSelect, if_neg hsaved]
  · have hinit : controllerState s ≠ .uninitialized := by simp [hrun]
    rw [exec_start_of_initialized hinit, resumedSelect, savedCs_eq_cs_of_running hs hrun, ite_self]

/-- STOP once INIT has run (R74). -/
theorem exec_stop_of_initialized {s : State} (hinit : controllerState s ≠ .uninitialized) :
    exec .stop s = .next { s with cs := disabled, responses := s.responses ++ [.ack] } :=
  exec_stop_of_ctc ((controllerState_ne_uninitialized_iff s).mp hinit)

/-- Settles O21: STOP disconnects the clock, which is disconnected already while stopped. -/
theorem stopResult : Obligations.StopResult := by
  refine fun s => ⟨exec_of_uninitialized rfl, exec_stop_of_initialized, fun hstopped => ?_⟩
  obtain ⟨-, hcs⟩ := (controllerState_eq_stopped_iff s).mp hstopped
  rw [exec_stop_of_initialized (by simp [hstopped]), ← hcs]

/-- R85: from count 0 all of `COMPARE` is still to be counted. -/
theorem ticksBeforeMatch_of_cnt_zero {s : State} (hcnt : s.cnt = 0) (hcompare : s.compareReg ≤ s.params.maxCount) :
    ticksBeforeMatch s = s.compareReg := by
  have hlt : s.compareReg < 2 ^ s.params.width := by
    rw [← maxCount_add_one]
    exact Nat.lt_succ_of_le hcompare
  rw [ticksBeforeMatch, hcnt, Nat.sub_zero, Nat.add_mod_right, Nat.mod_eq_of_lt hlt]

/-- Settles O22: RESET writes the counter alone, on which the controller state does not depend. -/
theorem resetResult : Obligations.ResetResult := by
  rintro s _ rfl
  exact ⟨rfl, rfl, fun hcompare => congrArg (· + 1) (ticksBeforeMatch_of_cnt_zero rfl hcompare)⟩

end Sys2Proof.Machine

/-! ### Proofs: the callback slot and its interrupt enable (42_interrupt_dispatch.md R78 to R82) -/

namespace Sys2Proof.Machine

/-! #### The whole result of ATTACH and DETACH (R78, R79) -/

/-- ATTACH, whether or not a match is latched (R78, R89). -/
theorem exec_attach (h : Token) (s : State) :
    exec (.attach h) s = .next { s with
      handler := h, ie := true, pend := false
      dispatches := if s.pend then s.dispatches ++ [h] else s.dispatches
      responses := s.responses ++ [.ack] } := by
  rw [exec, execAttach, deliverPending_eq]
  rfl

/-- DETACH (R79). -/
theorem exec_detach (s : State) :
    exec .detach s = .next { s with ie := false, responses := s.responses ++ [.ack] } := rfl

/-- Settles O25: ATTACH delivers the match that `PEND` latches, and clearing `PEND` where it is 0 changes nothing. -/
theorem attachResult : Obligations.AttachResult := by
  refine fun h s => ⟨fun hpend => ?_, fun hpend => ?_⟩
  · simp [exec_attach, hpend]
  · simp [exec_attach, hpend]

/-- Settles O26: the equation of DETACH. -/
theorem detachResult : Obligations.DetachResult := exec_detach

/-! #### What commands and steps do to the slot (R81, R82) -/

/-- A command keeps the dispatch elements, or it is ATTACH, which unmasks, or it is DETACH, which masks and keeps the
others. -/
theorem exec_slot_cases {i : Instr} {s t : State} (h : exec i s = .next t) :
    (t.ie = s.ie ∧ t.handler = s.handler ∧ t.pend = s.pend ∧ t.dispatches = s.dispatches) ∨
    (i = .attach t.handler ∧ t.ie = true) ∨
    (i = .detach ∧ t.ie = false ∧ t.handler = s.handler ∧ t.dispatches = s.dispatches) := by
  rcases exec_cases h with ⟨-, rfl⟩ | ⟨-, -, rfl⟩ | ⟨_, _, -, -, -, rfl⟩ | ⟨-, -, rfl⟩ | ⟨-, -, rfl⟩ |
    ⟨-, rfl⟩ | ⟨_, hi, rfl⟩ | ⟨hi, rfl⟩ | ⟨-, rfl⟩ | ⟨_, -, rfl⟩
  -- ATTACH and DETACH stand in places 7 and 8 of `exec_cases`.
  on_goal 8 => exact .inr (.inr ⟨hi, rfl, rfl, rfl⟩)
  on_goal 7 => exact .inr (.inl ⟨hi, rfl⟩)
  all_goals exact .inl ⟨rfl, rfl, rfl, rfl⟩

/-- An offered edge keeps the slot, and while masked it dispatches nothing (60_exceptions.md R88). -/
theorem offerTick_slot (s : State) :
    (offerTick s).ie = s.ie ∧ (offerTick s).handler = s.handler ∧
      (s.ie = false → (offerTick s).dispatches = s.dispatches) := by
  by_cases hrun : controllerState s = .running
  · rw [offerTick_running hrun, tick_eq]
    exact ⟨rfl, rfl, fun hmasked => by simp [hmasked]⟩
  · rw [offerTick_not_running hrun]
    exact ⟨rfl, rfl, fun _ => rfl⟩

/-- Short of a power-on reset, a step keeps the slot and, while masked, the dispatches; or it performs an ATTACH, or a
DETACH. -/
theorem step_slot_cases {s t : State} (h : step s = .next t) (hreset : s.nextIsPowerOn = false) :
    (t.ie = s.ie ∧ t.handler = s.handler ∧ (s.ie = false → t.dispatches = s.dispatches)) ∨
    (s.nextCommand = some (.attach t.handler) ∧ t.ie = true) ∨
    (s.nextCommand = some .detach ∧ t.ie = false ∧ t.handler = s.handler ∧ t.dispatches = s.dispatches) := by
  rcases step_cases h with ⟨-, rfl⟩ | ⟨w, rest, hcons, hexec⟩ | ⟨rest, -, rfl⟩ | ⟨c, n, rest, hcons, rfl⟩
  · exact .inl ⟨rfl, rfl, fun _ => rfl⟩
  · rw [State.nextCommand_of_cons hcons, Option.some.injEq, Option.some.injEq]
    rcases exec_slot_cases hexec with ⟨hie, hhandler, -, hdispatches⟩ | hattach | hdetach
    · exact .inl ⟨hie, hhandler, fun _ => hdispatches⟩
    · exact .inr (.inl hattach)
    · exact .inr (.inr hdetach)
  · exact .inl (offerTick_slot _)
  · simp [State.nextIsPowerOn, hcons, Event.isPowerOn] at hreset

/-- Settles O28: the three cases of a step, of which ATTACH alone writes the handler and only DETACH masks. -/
theorem slotChangesOnlyByItsCommands : Obligations.SlotChangesOnlyByItsCommands := by
  intro s t h hreset
  rcases step_slot_cases h hreset with ⟨hie, hhandler, -⟩ | ⟨hattach, hie⟩ | ⟨hdetach, hie, hhandler, -⟩
  · simp +contextual [hie, hhandler]
  · simp [hattach, hie]
  · simp [hdetach, hie, hhandler]

/-- Only SETPERIOD writes the configured period (R72). -/
theorem exec_keeps_period_or_setperiod {i : Instr} {s t : State} (h : exec i s = .next t) :
    (t.compareReg = s.compareReg ∧ t.savedCs = s.savedCs) ∨ ∃ period, i = .setperiod period := by
  rcases exec_cases h with ⟨-, rfl⟩ | ⟨-, -, rfl⟩ | ⟨period, _, hi, -, -, rfl⟩ | ⟨-, -, rfl⟩ | ⟨-, -, rfl⟩ |
    ⟨-, rfl⟩ | ⟨_, -, rfl⟩ | ⟨-, rfl⟩ | ⟨-, rfl⟩ | ⟨_, -, rfl⟩
  -- SETPERIOD after INIT stands in place 3 of `exec_cases`.
  on_goal 3 => exact .inr ⟨period, hi⟩
  all_goals exact .inl ⟨rfl, rfl⟩

/-- Settles O29: ATTACH and DETACH by their equations, any other command by the elements it keeps. -/
theorem commandFootprints : Obligations.CommandFootprints := by
  refine ⟨?_, fun i s hi => ?_, fun i s hi => ?_⟩
  · rintro i s (rfl | ⟨h, rfl⟩)
    · exact ⟨_, exec_detach s, rfl⟩
    · exact ⟨_, exec_attach h s, rfl⟩
  · obtain ⟨t, ht, -, -⟩ := exec_answers_next i s
    rcases exec_slot_cases ht with hkeep | ⟨rfl, -⟩ | ⟨rfl, -⟩
    · exact ⟨t, ht, hkeep⟩
    · simp at hi
    · simp at hi
  · obtain ⟨t, ht, -, hparams⟩ := exec_answers_next i s
    rcases exec_keeps_period_or_setperiod ht with ⟨hcompare, hsaved⟩ | ⟨_, rfl⟩
    · exact ⟨t, ht, hcompare, hsaved, hparams⟩
    · simp at hi

/-! #### The detached handler (R80) -/

/-- No power-on reset stands in the schedule. -/
def State.noPowerOnScheduled (s : State) : Prop := ∀ e ∈ s.schedule, e.isPowerOn = false

theorem State.noPowerOnScheduled.nextIsPowerOn {s : State} (hs : s.noPowerOnScheduled) : s.nextIsPowerOn = false := by
  unfold State.nextIsPowerOn
  split
  case h_1 e rest hcons => exact hs e (by simp [hcons])
  case h_2 => rfl

theorem step_keeps_noPowerOnScheduled {s t : State} (h : step s = .next t) (hs : s.noPowerOnScheduled) :
    t.noPowerOnScheduled := by
  obtain ⟨u, hu, hsched, -⟩ := everyStepTakesAtMostFirstEvent s
  cases h.symm.trans hu
  intro e he
  rw [hsched] at he
  exact hs e (List.mem_of_mem_tail he)

/-- The block holds the handler `h` detached, with the dispatches `log`, and nothing that would end this is to come. -/
structure State.Detached (h : Token) (log : List Token) (s : State) : Prop where
  noAttach : s.noAttachScheduled
  noPowerOn : s.noPowerOnScheduled
  ie : s.ie = false
  handler : s.handler = h
  dispatches : s.dispatches = log

theorem step_keeps_detached {h : Token} {log : List Token} {s t : State} (hstep : step s = .next t)
    (hs : s.Detached h log) : t.Detached h log := by
  obtain ⟨hattach, hreset, hmasked, rfl, rfl⟩ := hs
  have keeps (hie : t.ie = false) (hhandler : t.handler = s.handler) (hdispatches : t.dispatches = s.dispatches) :
      t.Detached s.handler s.dispatches :=
    ⟨step_keeps_noAttachScheduled hstep hattach, step_keeps_noPowerOnScheduled hstep hreset, hie, hhandler, hdispatches⟩
  rcases step_slot_cases hstep hreset.nextIsPowerOn with
    ⟨hie, hhandler, hsilent⟩ | ⟨hnext, -⟩ | ⟨-, hie, hhandler, hdispatches⟩
  · exact keeps (hie.trans hmasked) hhandler (hsilent hmasked)
  · exact absurd hnext (hattach.nextCommand_ne _)
  · exact keeps hie hhandler hdispatches

/-- A detached block is detached after any number of steps. -/
theorem reaches_keeps_detached {h : Token} {log : List Token} (k : Nat) {s : State} (hs : s.Detached h log) :
    ∃ t, reaches k s t ∧ t.Detached h log := by
  refine reaches_of_step_keeps (fun u hu => ?_) k hs
  obtain ⟨t, ht⟩ := exists_step_next u
  exact ⟨t, ht, step_keeps_detached ht hu⟩

/-- Settles O27: DETACH after ATTACH `h` leaves the block detached with `h`, and so it stays until GETCB. -/
theorem handlerRetention : Obligations.HandlerRetention := by
  intro h s
  obtain ⟨a, ha, -, hparams⟩ := exec_answers_next (.attach h) s
  have hhandler : a.handler = h := by
    cases ha.symm.trans (exec_attach h s)
    rfl
  refine ⟨a, _, ha, exec_detach a, fun events k hevents => ?_⟩
  rw [← hparams] at hevents
  have hstart : State.Detached h a.dispatches
      { a with ie := false, responses := a.responses ++ [.ack], schedule := events } :=
    ⟨fun e he => (hevents e he).1, fun e he => (hevents e he).2, rfl, hhandler, rfl⟩
  obtain ⟨t, ht, hdetached⟩ := reaches_keeps_detached k hstart
  refine ⟨t, ht, hdetached.ie, hdetached.dispatches, ?_⟩
  rw [← hdetached.handler]
  rfl

end Sys2Proof.Machine

/-! ### Proofs: TICKs, compare match and dispatch (60_exceptions.md R83 to R92) -/

namespace Sys2Proof.Machine

/-! #### Steps and runs -/

@[simp] theorem controllerState_of_schedule (s : State) (events : List Event) :
    controllerState { s with schedule := events } = controllerState s := rfl

/-- The three kinds of step short of a power-on reset. -/
theorem step_cases_of_not_powerOn {s t : State} (h : step s = .next t) (hreset : s.nextIsPowerOn = false) :
    (s.schedule = [] ∧ t = s) ∨
    (∃ w rest, s.schedule = .command w :: rest ∧
      exec (decode s.params.argWidth w) { s with schedule := rest } = .next t) ∨
    (∃ rest, s.schedule = .tick :: rest ∧ t = offerTick { s with schedule := rest }) := by
  rcases step_cases h with hwaits | hcommand | htick | ⟨c, n, rest, hcons, -⟩
  · exact .inl hwaits
  · exact .inr (.inl hcommand)
  · exact .inr (.inr htick)
  · simp [State.nextIsPowerOn, hcons, Event.isPowerOn] at hreset

/-- `k` steps and then one more. -/
theorem reaches_snoc {k : Nat} {s t u : State} (hr : reaches k s t) (h : step t = .next u) : reaches (k + 1) s u :=
  reaches_add hr (reaches_succ h (reaches_zero u))

/-! #### The step of a TICK (R84) -/

/-- The step of an offered edge while running. -/
theorem step_of_running_tick {s : State} {rest : List Event} (hs : s.schedule = .tick :: rest)
    (hrun : controllerState s = .running) : step s = .next (tick { s with schedule := rest }) := by
  rw [step_of_tick hs, offerTick_running (s := { s with schedule := rest }) hrun]

/-- A TICK that does not match only counts. -/
theorem step_of_counting_tick {s : State} {rest : List Event} (hs : s.schedule = .tick :: rest)
    (hrun : controllerState s = .running) (hne : s.cnt ≠ s.compareReg) :
    step s = .next { s with cnt := (s.cnt + 1) % 2 ^ s.params.width, schedule := rest } := by
  rw [step_of_running_tick hs hrun]
  simp [tick_eq, hne]

/-- A TICK that matches clears the counter and is a match event. -/
theorem step_of_matching_tick {s : State} {rest : List Event} (hs : s.schedule = .tick :: rest)
    (hrun : controllerState s = .running) (hmatch : s.cnt = s.compareReg) :
    step s = .next (matchEvent { s with cnt := 0, schedule := rest }) := by
  rw [step_of_running_tick hs hrun]
  simp [tick_eq, matchEvent_eq, hmatch]

/-! #### The next match (R85) -/

theorem State.countersOk.lt {s : State} (hs : s.countersOk) :
    s.compareReg < 2 ^ s.params.width ∧ s.cnt < 2 ^ s.params.width := by
  rw [← maxCount_add_one]
  exact hs.imp Nat.lt_succ_of_le Nat.lt_succ_of_le

/-- After `ticksBeforeMatch` more counts the counter has the compare value. -/
theorem cnt_add_ticksBeforeMatch {s : State} (hs : s.countersOk) :
    (s.cnt + ticksBeforeMatch s) % 2 ^ s.params.width = s.compareReg := by
  obtain ⟨hcompare, hcnt⟩ := hs.lt
  rw [ticksBeforeMatch, Nat.add_mod_mod, Nat.add_sub_cancel' (by omega), Nat.add_mod_right, Nat.mod_eq_of_lt hcompare]

/-- Before that it has another: fewer than `2^W` counts lead to pairwise different values. -/
theorem cnt_add_ne_compareReg {s : State} (hs : s.countersOk) {j : Nat} (hj : j < ticksBeforeMatch s) :
    (s.cnt + j) % 2 ^ s.params.width ≠ s.compareReg := by
  intro h
  have hbound : ticksBeforeMatch s < 2 ^ s.params.width := Nat.mod_lt _ (Nat.two_pow_pos _)
  have hmod : s.cnt + j ≡ s.cnt + ticksBeforeMatch s [MOD 2 ^ s.params.width] :=
    h.trans (cnt_add_ticksBeforeMatch hs).symm
  exact hj.ne ((hmod.add_left_cancel' s.cnt).eq_of_lt_of_lt (hj.trans hbound) hbound)

/-- TICKs none of which finds the compare value only count, modulo `2^W`. -/
theorem reaches_counting {s : State} (hrun : controllerState s = .running) (hcnt : s.cnt < 2 ^ s.params.width)
    {k : Nat} {rest : List Event} (hs : s.schedule = List.replicate k .tick ++ rest)
    (hne : ∀ j < k, (s.cnt + j) % 2 ^ s.params.width ≠ s.compareReg) :
    reaches k s { s with cnt := (s.cnt + k) % 2 ^ s.params.width, schedule := rest } := by
  induction k generalizing rest with
  | zero =>
    rw [Nat.add_zero, Nat.mod_eq_of_lt hcnt, show rest = s.schedule from hs.symm]
    exact reaches_zero s
  | succ k ih =>
    rw [List.replicate_succ', List.append_assoc] at hs
    have hstep := step_of_counting_tick
      (s := { s with cnt := (s.cnt + k) % 2 ^ s.params.width, schedule := .tick :: rest }) rfl hrun
      (hne k k.lt_succ_self)
    rw [Nat.mod_add_mod] at hstep
    exact reaches_snoc (ih hs fun j hj => hne j (hj.trans k.lt_succ_self)) hstep

/-- The run to the next match and through it. -/
theorem reaches_match {s : State} (hok : s.countersOk) (hrun : controllerState s = .running) {rest : List Event}
    (hs : s.schedule = List.replicate (ticksBeforeMatch s + 1) .tick ++ rest) :
    reaches (ticksBeforeMatch s + 1) s (matchEvent { s with cnt := 0, schedule := rest }) := by
  rw [List.replicate_succ', List.append_assoc] at hs
  have hcount := reaches_counting hrun hok.lt.2 hs fun j => cnt_add_ne_compareReg hok
  have hstep := step_of_matching_tick
    (s := { s with cnt := (s.cnt + ticksBeforeMatch s) % 2 ^ s.params.width, schedule := .tick :: rest }) rfl hrun
    (cnt_add_ticksBeforeMatch hok)
  exact reaches_snoc hcount hstep

/-- Settles O32: until the counter has the compare value TICKs count, and the next one is the match. -/
theorem nextMatchTick : Obligations.NextMatchTick := by
  intro s n rest hok hrun hn hs
  obtain rfl : n = ticksBeforeMatch s := hn
  refine ⟨fun j hj => ?_, cnt_add_ticksBeforeMatch hok, ?_⟩
  · have hsplit : ticksBeforeMatch s + 1 = j + (ticksBeforeMatch s + 1 - j) := by omega
    rw [hsplit, List.replicate_add, List.append_assoc] at hs
    exact reaches_counting hrun hok.lt.2 hs fun i hi => cnt_add_ne_compareReg hok (by omega)
  · have hmatch := reaches_match hok hrun hs
    rwa [matchEvent_eq] at hmatch

/-! #### One match per period (R84, R100) -/

/-- A match event leaves everything that the next one depends on, so several of them add up. -/
theorem matchEvent_iterate (m : Nat) (s : State) :
    matchEvent^[m] s = { s with
      dispatches := if s.ie then s.dispatches ++ List.replicate m s.handler else s.dispatches
      pend := s.pend || (!s.ie && s.params.maskedMatchPends && decide (1 ≤ m)) } := by
  induction m with
  | zero => simp
  | succ m ih =>
    rw [Function.iterate_succ_apply', ih, matchEvent_eq]
    cases s.ie with
    | true => simp [List.replicate_succ']
    | false => cases s.params.maskedMatchPends <;> simp

/-- A match event neither reads nor writes the schedule. -/
theorem matchEvent_of_schedule (s : State) (events : List Event) :
    matchEvent { s with schedule := events } = { matchEvent s with schedule := events } := by
  rw [matchEvent_eq, matchEvent_eq]

/-- A running block at the start of a period of `c + 1` TICKs. -/
structure State.PeriodStart (c : Nat) (s : State) : Prop where
  counters : s.countersOk
  running : controllerState s = .running
  cnt : s.cnt = 0
  compareReg : s.compareReg = c

theorem State.PeriodStart.after_matches {c : Nat} {s : State} (hs : s.PeriodStart c) (m : Nat) (events : List Event) :
    { matchEvent^[m] s with schedule := events }.PeriodStart c := by
  rw [matchEvent_iterate]
  exact ⟨hs.counters, hs.running, hs.cnt, hs.compareReg⟩

/-- The next match comes at the end of the period, and the count is 0 again. -/
theorem reaches_period {c : Nat} {s : State} (hs : s.PeriodStart c) {rest : List Event}
    (hsched : s.schedule = List.replicate (c + 1) .tick ++ rest) :
    reaches (c + 1) s { matchEvent s with schedule := rest } := by
  obtain ⟨hok, hrun, hcnt, rfl⟩ := hs
  have hbefore : ticksBeforeMatch s = s.compareReg := ticksBeforeMatch_of_cnt_zero hcnt hok.1
  have hmatch := reaches_match hok hrun (rest := rest) (by rwa [hbefore])
  rwa [hbefore, ← hcnt, matchEvent_of_schedule] at hmatch

/-- So `m` periods bring `m` match events. -/
theorem reaches_periods (m : Nat) {c : Nat} {s : State} (hs : s.PeriodStart c) {rest : List Event}
    (hsched : s.schedule = List.replicate (m * (c + 1)) .tick ++ rest) :
    reaches (m * (c + 1)) s { matchEvent^[m] s with schedule := rest } := by
  induction m generalizing rest with
  | zero =>
    rw [Nat.zero_mul] at hsched ⊢
    rw [show rest = s.schedule from hsched.symm]
    exact reaches_zero s
  | succ m ih =>
    rw [Nat.succ_mul, List.replicate_add, List.append_assoc] at hsched
    have hperiod := reaches_period (rest := rest) (hs.after_matches m _) rfl
    rw [matchEvent_of_schedule, ← Function.iterate_succ_apply' matchEvent] at hperiod
    rw [Nat.succ_mul]
    exact reaches_add (ih hsched) hperiod

/-- Settles O33: each of the `m` periods starts as the first one does and ends in a match event. -/
theorem oneMatchPerPeriod : Obligations.OneMatchPerPeriod := by
  intro s m rest hok hrun hcnt hs
  have hperiods := reaches_periods m ⟨hok, hrun, hcnt, rfl⟩ hs
  rwa [matchEvent_iterate] at hperiods

/-! #### The whole result of an offered edge (R83, R84, R86 to R88) -/

/-- Settles O31: a TICK counts or is a match event, whose three cases are those of R86 to R88. -/
theorem tickResult : Obligations.TickResult := by
  intro s rest hs hrun
  have hstep := step_of_matching_tick hs hrun
  simp only [matchEvent_eq] at hstep
  refine ⟨step_of_counting_tick hs hrun, fun hmatch hie => ?_, fun hmatch hie hpends => ?_, fun hmatch hie hpends => ?_⟩
  · simp [hstep hmatch, hie]
  · simp [hstep hmatch, hie, hpends]
  · simp [hstep hmatch, hie, hpends]

/-- Settles O30: an edge offered while the clock source is disconnected is only taken off the schedule. -/
theorem tickOnlyWhileRunning : Obligations.TickOnlyWhileRunning := by
  intro s rest hs hrun
  rw [step_of_tick hs, offerTick_not_running (s := { s with schedule := rest }) hrun]

/-! #### Delivery of a latched match (R89) -/

/-- ATTACH alone clears `PEND`. -/
theorem exec_clears_pend {i : Instr} {s t : State} (h : exec i s = .next t) (hs : s.pend = true)
    (ht : t.pend = false) : i = .attach t.handler := by
  rcases exec_slot_cases h with ⟨-, -, hkeep, -⟩ | ⟨hi, -⟩ | ⟨rfl, -⟩
  · simp [hkeep, hs] at ht
  · exact hi
  · cases h.symm.trans (exec_detach s)
    simp [hs] at ht

theorem offerTick_keeps_pend {s : State} (hs : s.pend = true) : (offerTick s).pend = true := by
  by_cases hrun : controllerState s = .running
  · rw [offerTick_running hrun, tick_eq]
    simp [hs]
  · rwa [offerTick_not_running hrun]

theorem step_clears_pend {s t : State} (h : step s = .next t) (hreset : s.nextIsPowerOn = false)
    (hs : s.pend = true) (ht : t.pend = false) : s.nextCommand = some (.attach t.handler) := by
  rcases step_cases_of_not_powerOn h hreset with ⟨-, rfl⟩ | ⟨w, rest, hcons, hexec⟩ | ⟨rest, -, rfl⟩
  · simp [hs] at ht
  · rw [State.nextCommand_of_cons hcons, exec_clears_pend hexec hs ht]
  · rw [offerTick_keeps_pend (s := { s with schedule := rest }) hs] at ht
    cases ht

/-- Where the parameter is false, no step latches a match. -/
theorem step_keeps_pendAllowed {s t : State} (h : step s = .next t) (hs : s.pendAllowed) : t.pendAllowed :=
  step_keeps (P := State.pendAllowed) (fun _ _ hu => hu) (fun _ _ _ => exec_keeps_pendAllowed)
    (fun _ _ => tick_keeps_pendAllowed) (fun _ _ _ _ _ => rfl) h hs

/-- Settles O34: ATTACH by its equation; no other command clears `PEND`, and a TICK only sets it. -/
theorem pendingDelivery : Obligations.PendingDelivery := by
  refine ⟨fun h s hs => ⟨_, exec_attach h s, rfl, rfl, rfl, if_pos hs⟩, fun s t => step_clears_pend,
    fun s t h hparam hs => ?_⟩
  have hparam' : t.params.maskedMatchPends = false := by rw [step_params h, hparam]
  exact ⟨step_keeps_pendAllowed h (fun _ => hs) hparam', hparam'⟩

/-! #### The causes of a dispatch (R90, R92) -/

/-- A command dispatches exactly when it is an ATTACH that finds a latched match. -/
theorem exec_dispatches {i : Instr} {s t : State} (h : exec i s = .next t) :
    t.dispatches = if s.pend = true ∧ i = .attach t.handler then s.dispatches ++ [t.handler] else s.dispatches := by
  by_cases hattach : ∃ token, i = .attach token
  · obtain ⟨token, rfl⟩ := hattach
    cases h.symm.trans (exec_attach token s)
    simp
  · have hi : i ≠ .attach t.handler := fun hi => hattach ⟨_, hi⟩
    rw [if_neg fun hboth => hi hboth.2]
    rcases exec_slot_cases h with ⟨-, -, -, hkeep⟩ | ⟨hi', -⟩ | ⟨-, -, -, hkeep⟩
    · exact hkeep
    · exact absurd hi' hi
    · exact hkeep

/-- An offered edge dispatches exactly when it is a TICK that matches while enabled. -/
theorem offerTick_dispatches (s : State) :
    (offerTick s).dispatches =
      if controllerState s = .running ∧ s.cnt = s.compareReg ∧ s.ie = true then
        s.dispatches ++ [(offerTick s).handler]
      else s.dispatches := by
  rw [offerTick_handler]
  by_cases hrun : controllerState s = .running
  · rw [offerTick_running hrun, tick_eq]
    simp [hrun, ite_and]
  · rw [offerTick_not_running hrun, if_neg fun hall => hrun hall.1]

/-- A conditional value by its two conditions. -/
theorem imp_and_imp_of_eq_ite {α : Type} {p q : Prop} [Decidable q] {x a b : α} (hpq : p ↔ q)
    (hx : x = if q then a else b) : (p → x = a) ∧ (¬p → x = b) := by
  rw [hpq, hx]
  exact ⟨fun hq => if_pos hq, fun hq => if_neg hq⟩

/-- Settles O35: a waiting step has neither cause; an edge can have the first alone, and a command the second. -/
theorem dispatchCauses : Obligations.DispatchCauses := by
  intro s t h hreset
  rcases step_cases_of_not_powerOn h hreset with ⟨hnil, rfl⟩ | ⟨w, rest, hcons, hexec⟩ | ⟨rest, hcons, rfl⟩
  · simp [hnil, State.nextCommand]
  · refine imp_and_imp_of_eq_ite ?_ (exec_dispatches (s := { s with schedule := rest }) hexec)
    simp [hcons, State.nextCommand]
  · refine imp_and_imp_of_eq_ite ?_ (offerTick_dispatches { s with schedule := rest })
    simp [hcons, State.nextCommand]

end Sys2Proof.Machine

/-! ### Proofs: the fault bits (60_exceptions.md R96 to R98, 70_reset_and_hazards.md R105) -/

namespace Sys2Proof.Machine

/-- Settles O36: the equation of a command that needs INIT and comes before it. -/
theorem beforeInitFault : Obligations.BeforeInitFault := fun _ _ => exec_of_uninitialized

/-! #### Which command records a fault, and that none clears one (R98) -/

/-- Both fault bits of `t` are as they are in `s`. -/
def SameFaults (s t : State) : Prop :=
  t.faultBeforeInit = s.faultBeforeInit ∧ t.faultReservedOp = s.faultReservedOp

/-- A command leaves the fault bits alone; or it needs INIT and comes before it; or its opcode is reserved. -/
theorem exec_fault_cases {i : Instr} {s t : State} (h : exec i s = .next t) :
    SameFaults s t ∨
    (needsInit i = true ∧ s.mode = .normal ∧ t.faultBeforeInit = true ∧ t.faultReservedOp = s.faultReservedOp) ∨
    ((∃ op, i = .reserved op) ∧ t.faultBeforeInit = s.faultBeforeInit ∧ t.faultReservedOp = true) := by
  rcases exec_cases h with ⟨-, rfl⟩ | ⟨hi, hm, rfl⟩ | ⟨_, _, -, -, -, rfl⟩ | ⟨-, -, rfl⟩ | ⟨-, -, rfl⟩ |
    ⟨-, rfl⟩ | ⟨_, -, rfl⟩ | ⟨-, rfl⟩ | ⟨-, rfl⟩ | ⟨op, hi, rfl⟩
  -- A reserved opcode stands in place 10 of `exec_cases`, a command before INIT in place 2.
  on_goal 10 => exact .inr (.inr ⟨⟨op, hi⟩, rfl, rfl⟩)
  on_goal 2 => exact .inr (.inl ⟨hi, hm, rfl, rfl⟩)
  all_goals exact .inl ⟨rfl, rfl⟩

/-- An offered edge writes neither `MODE` nor a fault bit. -/
theorem offerTick_mode_faults (s : State) : (offerTick s).mode = s.mode ∧ SameFaults s (offerTick s) := by
  by_cases hrun : controllerState s = .running
  · rw [offerTick_running hrun, tick_eq]
    exact ⟨rfl, rfl, rfl⟩
  · rw [offerTick_not_running hrun]
    exact ⟨rfl, rfl, rfl⟩

theorem step_keeps_faults {s t : State} (h : step s = .next t) (hreset : s.nextIsPowerOn = false) :
    (s.faultBeforeInit = true → t.faultBeforeInit = true) ∧ (s.faultReservedOp = true → t.faultReservedOp = true) := by
  rcases step_cases_of_not_powerOn h hreset with ⟨-, rfl⟩ | ⟨w, rest, -, hexec⟩ | ⟨rest, -, rfl⟩
  · exact ⟨id, id⟩
  · rcases exec_fault_cases hexec with ⟨hinit, hop⟩ | ⟨-, -, hinit, hop⟩ | ⟨-, hinit, hop⟩
    · exact ⟨hinit.trans, hop.trans⟩
    · exact ⟨fun _ => hinit, hop.trans⟩
    · exact ⟨hinit.trans, fun _ => hop⟩
  · obtain ⟨-, hinit, hop⟩ := offerTick_mode_faults { s with schedule := rest }
    exact ⟨hinit.trans, hop.trans⟩

/-- Settles O38: an event keeps a fault bit or sets it, and none stops the block. -/
theorem faultBitsSticky : Obligations.FaultBitsSticky := by
  refine ⟨fun s t => step_keeps_faults, exists_step_next, fun i s => ?_⟩
  obtain ⟨t, ht, -, -⟩ := exec_answers_next i s
  exact ⟨t, ht⟩

/-! #### The boot order (R105) -/

/-- What R105 asks of a schedule that begins with a command: its opcode is not reserved, INIT has run if the command
needs it, and the rest keeps the order, with INIT run if the command is INIT. -/
theorem bootOrder_command_iff {argWidth w : Nat} {initialised : Bool} {rest : List Event} :
    bootOrder argWidth initialised (.command w :: rest) = true ↔
      (¬∃ op, decode argWidth w = .reserved op) ∧ (needsInit (decode argWidth w) = true → initialised = true) ∧
        bootOrder argWidth (initialised || decide (decode argWidth w = .init)) rest = true := by
  rw [bootOrder]
  cases decode argWidth w <;> simp [needsInit]

/-- INIT alone writes `MODE` (R71). -/
theorem exec_ctc {i : Instr} {s t : State} (h : exec i s = .next t) :
    decide (t.mode = .ctc) = (decide (s.mode = .ctc) || decide (i = .init)) := by
  rcases exec_cases h with ⟨rfl, rfl⟩ | ⟨hi, -, rfl⟩ | ⟨_, _, rfl, -, -, rfl⟩ | ⟨rfl, -, rfl⟩ | ⟨rfl, -, rfl⟩ |
    ⟨rfl, rfl⟩ | ⟨_, rfl, rfl⟩ | ⟨rfl, rfl⟩ | ⟨rfl, rfl⟩ | ⟨_, rfl, rfl⟩
  -- A command that needs INIT, in place 2 of `exec_cases`, is not INIT.
  on_goal 2 =>
    have hne : i ≠ .init := by
      rintro rfl
      cases hi
    simp [hne]
  all_goals simp

theorem exec_schedule {i : Instr} {s t : State} (h : exec i s = .next t) : t.schedule = s.schedule := by
  obtain ⟨u, hu, hsched, -⟩ := exec_answers_next i s
  cases h.symm.trans hu
  exact hsched

/-- No fault is recorded, and software keeps the boot order in what is scheduled. -/
structure State.Booting (s : State) : Prop where
  noFault : s.noFault = true
  order : bootOrder s.params.argWidth (decide (s.mode = .ctc)) s.schedule = true

theorem noFault_of_sameFaults {s t : State} (h : SameFaults s t) (hs : s.noFault = true) : t.noFault = true := by
  obtain ⟨hinit, hop⟩ := h
  rwa [State.noFault, hinit, hop]

/-- A command that the boot order allows records no fault. -/
theorem exec_keeps_noFault {i : Instr} {s t : State} (h : exec i s = .next t) (hop : ¬∃ op, i = .reserved op)
    (hinit : needsInit i = true → s.mode = .ctc) (hs : s.noFault = true) : t.noFault = true := by
  rcases exec_fault_cases h with hsame | ⟨hi, hm, -⟩ | ⟨hreserved, -⟩
  · exact noFault_of_sameFaults hsame hs
  · simp [hinit hi] at hm
  · exact absurd hreserved hop

theorem step_keeps_booting {s t : State} (h : step s = .next t) (hs : s.Booting) : t.Booting := by
  obtain ⟨hclean, horder⟩ := hs
  rcases step_cases h with ⟨-, rfl⟩ | ⟨w, rest, hcons, hexec⟩ | ⟨rest, hcons, rfl⟩ | ⟨c, n, rest, hcons, rfl⟩
  · exact ⟨hclean, horder⟩
  · rw [hcons, bootOrder_command_iff] at horder
    obtain ⟨hop, hinit, hrest⟩ := horder
    refine ⟨exec_keeps_noFault hexec hop (fun hi => of_decide_eq_true (hinit hi)) hclean, ?_⟩
    rwa [exec_params hexec, exec_ctc hexec, exec_schedule hexec]
  · rw [hcons, bootOrder] at horder
    obtain ⟨hmode, hsame⟩ := offerTick_mode_faults { s with schedule := rest }
    obtain ⟨hsched, hparams⟩ := offerTick_schedule_params { s with schedule := rest }
    refine ⟨noFault_of_sameFaults hsame hclean, ?_⟩
    rwa [hmode, hsched, hparams]
  · rw [hcons, bootOrder] at horder
    exact ⟨rfl, horder⟩

/-- Settles O56: the boot order is kept by what remains of the schedule, and no event it allows records a fault. -/
theorem initFirstRecordsNoFault : Obligations.InitFirstRecordsNoFault := by
  intro s k hclean horder
  have keeps (u : State) (hu : u.Booting) : ∃ t, step u = .next t ∧ t.Booting := by
    obtain ⟨t, ht⟩ := exists_step_next u
    exact ⟨t, ht, step_keeps_booting ht hu⟩
  obtain ⟨t, ht, hbooting⟩ := reaches_of_step_keeps keeps k ⟨hclean, horder⟩
  exact ⟨t, ht, hbooting.noFault⟩

end Sys2Proof.Machine

/-! ### Proofs: power-on reset and the rules for software (70_reset_and_hazards.md R103 to R109) -/

namespace Sys2Proof.Machine

/-! #### Power-on reset (R103, R104) -/

/-- Settles O44: the step of an empty schedule is the block waiting. -/
theorem waitsWithNothingScheduled : Obligations.WaitsWithNothingScheduled := fun _ => step_of_nil

/-- Settles O59: the event is taken off the schedule, and power-on reset keeps what remains of it. -/
theorem powerOnEventResult : Obligations.PowerOnEventResult := fun _ _ _ _ => step_of_powerOn

/-- Settles O43: the power-on state is not running, so it takes no TICK, and INIT leaves it without a remembered
selector, so START finds nothing to resume. -/
theorem afterPowerOn : Obligations.AfterPowerOn := by
  rintro p c n _ rfl
  have hidle : controllerState (State.powerOn p c n) ≠ .running := nofun
  obtain ⟨hinit, hstopped, -⟩ := initResult (State.powerOn p c n) _ rfl
  obtain ⟨-, hstart, -⟩ := startResult _
  exact ⟨rfl, rfl, rfl, tickOnlyWhileRunning _ [] rfl hidle, rfl, rfl, _, hinit, hstart (by simp [hstopped]) rfl⟩

/-! #### A command at the head of the schedule, and the TICKs after it -/

/-- The command whose word is scheduled next is performed next. -/
theorem reaches_of_encoded_command {i : Instr} {s t : State} {rest : List Event} (hwf : i.wf s.params.argWidth = true)
    (hs : s.schedule = .command (encode s.params.argWidth i) :: rest)
    (h : exec i { s with schedule := rest } = .next t) : reaches 1 s t := by
  have hstep : step s = .next t := by rwa [step_of_command hs, decode_encode_of_wf hwf]
  exact reaches_succ hstep (reaches_zero t)

/-- R85 with the count at most the compare value: it need not pass `MAXCOUNT` first. -/
theorem ticksBeforeMatch_of_cnt_le {s : State} (hok : s.countersOk) (hle : s.cnt ≤ s.compareReg) :
    ticksBeforeMatch s = s.compareReg - s.cnt := by
  obtain ⟨hcompare, -⟩ := hok.lt
  rw [ticksBeforeMatch, Nat.sub_add_comm hle, Nat.add_mod_right, Nat.mod_eq_of_lt (by omega)]

/-- The run up to the next match, which the counter reaches with the compare value, and the run through it. -/
theorem reaches_compare_and_match {s : State} (hok : s.countersOk) (hrun : controllerState s = .running)
    (hle : s.cnt ≤ s.compareReg) {rest : List Event}
    (hs : s.schedule = List.replicate (s.compareReg + 1 - s.cnt) .tick ++ rest) :
    reaches (s.compareReg - s.cnt) s { s with cnt := s.compareReg, schedule := .tick :: rest } ∧
    reaches (s.compareReg + 1 - s.cnt) s
      { s with
        cnt := 0
        dispatches := if s.ie then s.dispatches ++ [s.handler] else s.dispatches
        pend := s.pend || (!s.ie && s.params.maskedMatchPends)
        schedule := rest } := by
  rw [Nat.sub_add_comm hle] at hs ⊢
  obtain ⟨hcount, hcompare, hmatch⟩ :=
    nextMatchTick s _ rest hok hrun (ticksBeforeMatch_of_cnt_le hok hle).symm hs
  have hlast := hcount _ le_rfl
  rw [hcompare, Nat.add_sub_cancel_left] at hlast
  exact ⟨hlast, hmatch⟩

/-! #### The first period after START, and after SETPERIOD with RESET (R107, R109) -/

/-- Settles O54: START leaves a running block with the count it found, and TICKs take it from there. -/
theorem startResumes : Obligations.StartResumes := by
  intro s rest hstopped hsaved hok hle hs
  obtain ⟨hctc, -⟩ := (controllerState_eq_stopped_iff s).mp hstopped
  obtain ⟨-, -, hexec, -⟩ := startResult { s with schedule := List.replicate (s.compareReg + 1 - s.cnt) .tick ++ rest }
  have hstart := reaches_of_encoded_command (i := .start) rfl hs (hexec (by simp [hstopped]) hsaved)
  have hrun := (controllerState_eq_running_iff { s with cs := s.savedCs }).mpr ⟨hctc, hsaved⟩
  obtain ⟨hcompare, hmatch⟩ := reaches_compare_and_match
    (s := { s with
      cs := s.savedCs, responses := s.responses ++ [.ack]
      schedule := List.replicate (s.compareReg + 1 - s.cnt) .tick ++ rest }) hok hrun hle rfl
  exact ⟨reaches_add hstart hcompare, reaches_add hstart hmatch⟩

/-- The clock counts with the resolved pair `r` from count 0, after two acknowledged commands. -/
def State.atNewPeriod (r : Selector × Nat) (events : List Event) (s : State) : State :=
  { s with
    cs := r.1, savedCs := r.1, compareReg := r.2, cnt := 0
    responses := s.responses ++ [.ack, .ack], schedule := events }

/-- SETPERIOD of a period that is not zero, then RESET, once INIT has run. -/
theorem reaches_atNewPeriod {s : State} {period : Nat} {rest : List Event}
    (hinit : controllerState s ≠ .uninitialized) (hsel : (resolve s.params period).1 ≠ disabled)
    (harg : period < 2 ^ s.params.argWidth)
    (hs : s.schedule = .command (encode s.params.argWidth (.setperiod period)) ::
      .command (encode s.params.argWidth .reset) :: rest) :
    reaches 2 s (s.atNewPeriod (resolve s.params period) rest) := by
  obtain ⟨-, -, hexec, -⟩ :=
    setperiodResult period { s with schedule := .command (encode s.params.argWidth .reset) :: rest }
  have hset := reaches_of_encoded_command (i := .setperiod period) (decide_eq_true harg) hs (hexec hinit hsel)
  have hreset := reaches_add hset (reaches_of_encoded_command (i := .reset) rfl rfl (resetResult _ _ rfl).1)
  rwa [List.append_assoc] at hreset

/-- Settles O55: the new period starts at count 0, whatever the count was, and ends in its match. -/
theorem resetAppliesNewPeriod : Obligations.ResetAppliesNewPeriod := by
  rintro s period _ rest hwf hrun hpos harg rfl hs
  have hsel : (resolve s.params period).1 ≠ disabled :=
    fun hd => absurd ((resolve_selector_eq_disabled_iff hwf period).mp hd) (by omega)
  have hperiod := reaches_atNewPeriod (by simp [hrun]) hsel harg hs
  obtain ⟨hctc, -⟩ := (controllerState_eq_running_iff s).mp hrun
  obtain ⟨hcompare, hmatch⟩ := reaches_compare_and_match
    (s := s.atNewPeriod (resolve s.params period) (List.replicate ((resolve s.params period).2 + 1) .tick ++ rest))
    ⟨resolve_compare_le s.params period, Nat.zero_le _⟩ ((controllerState_eq_running_iff _).mpr ⟨hctc, hsel⟩)
    (Nat.zero_le _) rfl
  exact ⟨_, rfl, reaches_add hperiod hcompare, reaches_add hperiod hmatch⟩

end Sys2Proof.Machine

/-! ### Proofs: the decoding vectors (95_test_vectors.md L2.2) -/

namespace Sys2Proof

/-- Settles O1: eight words encode their command; the other two set bits of `ARG` that their opcodes ignore
(30_encoding.md R49, R50). -/
theorem decodesWrittenWords : Obligations.DecodesWrittenWords :=
  ⟨decode_of_opField (op := 0x0#4) rfl, decode_encode_of_wf (i := .setperiod 1000000) rfl,
    decode_encode_of_wf (i := .start) rfl, decode_encode_of_wf (i := .stop) rfl,
    decode_encode_of_wf (i := .reset) rfl, decode_encode_of_wf (i := .attach 0x1234#32) rfl,
    decode_encode_of_wf (i := .detach) rfl, decode_encode_of_wf (i := .getcb) rfl,
    decode_encode_of_wf (i := .reserved 0x8#4) rfl, decode_of_opField (op := 0xF#4) rfl⟩

end Sys2Proof
